-- ==== Sys2Proof/Word.lean ====
section
/-! DEFINITION. The word of the core (00_scope.md R4: XLEN = 32) and the byte of the code image (20_memory.md R50). -/

namespace Sys2Proof

/-- A register, an operand, a result or an opcode: 32 bits (00_scope.md R4). -/
abbrev Word := BitVec 32

/-- A byte of the code image (20_memory.md R50). -/
abbrev Byte := BitVec 8

end Sys2Proof
end

