-- ==== Sys2Proof/Syntax.lean ====
section
/-! DEFINITION. The instructions: one constructor of Instr per row of spec/opcode_table.json (30_encoding.md R90).
A constructor holds every bit that its row leaves free, the bits the hardware ignores included (30_encoding.md R84),
so that decoding loses nothing; the meanings do not read the ignored ones. -/

namespace Sys2Proof

/-- A register index, 0 to 15 (10_state.md R20, R22). -/
abbrev Reg := Fin 16

/-- The sixteen condition codes in the order of 30_encoding.md R71. -/
inductive Cond where
  | eq | ne | cs | cc | mi | pl | vs | vc | hi | ls | ge | lt | gt | le | al | nv
  deriving DecidableEq, Repr

/-- The four shift types in the order of 30_encoding.md R79. -/
inductive ShiftType where
  | lsl | lsr | asr | ror
  deriving DecidableEq, Repr

/-- The sixteen ALU operations in the order of 30_encoding.md R78. -/
inductive AluOp where
  | and | eor | sub | rsb | add | adc | sbc | rsc | tst | teq | cmp | cmn | orr | mov | bic | mvn
  deriving DecidableEq, Repr

/-- The sixteen operations in the order of their numbers (30_encoding.md R78). -/
def AluOp.all : List AluOp :=
  [.and, .eor, .sub, .rsb, .add, .adc, .sbc, .rsc, .tst, .teq, .cmp, .cmn, .orr, .mov, .bic, .mvn]

/-- Operand 2 of a data-processing instruction, in its three forms (30_encoding.md R75, R76, R77). -/
inductive Operand2 where
  /-- `imm8` rotated right by twice `rotate` (R75). -/
  | imm (rotate : BitVec 4) (imm8 : BitVec 8)
  /-- `rm` shifted by the 5-bit amount `amount` (R76). -/
  | shiftImm (amount : BitVec 5) (ty : ShiftType) (rm : Reg)
  /-- `rm` shifted by the low byte of `rs`; `bit7` is ignored (R77). -/
  | shiftReg (rs : Reg) (bit7 : Bool) (ty : ShiftType) (rm : Reg)
  deriving DecidableEq, Repr

/-- The instructions. `c` is the condition, `sf` the update flag S, `u` the direction flag U (1 = add), `rn`, `rd`,
`rm`, `rs` the register fields of 30_encoding.md R74 to R80; `b24`, `b22`, `b21` are the ignored bits of a transfer. -/
inductive Instr where
  /-- Branch (R73, R200). -/
  | b (c : Cond) (offset24 : BitVec 24)
  /-- BranchWithLink (R73, R201). -/
  | bl (c : Cond) (offset24 : BitVec 24)
  /-- AND, immediate operand (R164, R75). -/
  | andImm (c : Cond) (sf : Bool) (rn rd : Reg) (rotate : BitVec 4) (imm8 : BitVec 8)
  /-- AND, register shifted by immediate (R164, R76). -/
  | andShiftImm (c : Cond) (sf : Bool) (rn rd : Reg) (amount : BitVec 5) (ty : ShiftType) (rm : Reg)
  /-- AND, register shifted by register (R164, R77). -/
  | andShiftReg (c : Cond) (sf : Bool) (rn rd rs : Reg) (bit7 : Bool) (ty : ShiftType) (rm : Reg)
  /-- EOR, immediate operand (R165, R75). -/
  | eorImm (c : Cond) (sf : Bool) (rn rd : Reg) (rotate : BitVec 4) (imm8 : BitVec 8)
  /-- EOR, register shifted by immediate (R165, R76). -/
  | eorShiftImm (c : Cond) (sf : Bool) (rn rd : Reg) (amount : BitVec 5) (ty : ShiftType) (rm : Reg)
  /-- EOR, register shifted by register (R165, R77). -/
  | eorShiftReg (c : Cond) (sf : Bool) (rn rd rs : Reg) (bit7 : Bool) (ty : ShiftType) (rm : Reg)
  /-- SUB, immediate operand (R166, R75). -/
  | subImm (c : Cond) (sf : Bool) (rn rd : Reg) (rotate : BitVec 4) (imm8 : BitVec 8)
  /-- SUB, register shifted by immediate (R166, R76). -/
  | subShiftImm (c : Cond) (sf : Bool) (rn rd : Reg) (amount : BitVec 5) (ty : ShiftType) (rm : Reg)
  /-- SUB, register shifted by register (R166, R77). -/
  | subShiftReg (c : Cond) (sf : Bool) (rn rd rs : Reg) (bit7 : Bool) (ty : ShiftType) (rm : Reg)
  /-- RSB, immediate operand (R167, R75). -/
  | rsbImm (c : Cond) (sf : Bool) (rn rd : Reg) (rotate : BitVec 4) (imm8 : BitVec 8)
  /-- RSB, register shifted by immediate (R167, R76). -/
  | rsbShiftImm (c : Cond) (sf : Bool) (rn rd : Reg) (amount : BitVec 5) (ty : ShiftType) (rm : Reg)
  /-- RSB, register shifted by register (R167, R77). -/
  | rsbShiftReg (c : Cond) (sf : Bool) (rn rd rs : Reg) (bit7 : Bool) (ty : ShiftType) (rm : Reg)
  /-- ADD, immediate operand (R168, R75). -/
  | addImm (c : Cond) (sf : Bool) (rn rd : Reg) (rotate : BitVec 4) (imm8 : BitVec 8)
  /-- ADD, register shifted by immediate (R168, R76). -/
  | addShiftImm (c : Cond) (sf : Bool) (rn rd : Reg) (amount : BitVec 5) (ty : ShiftType) (rm : Reg)
  /-- ADD, register shifted by register (R168, R77). -/
  | addShiftReg (c : Cond) (sf : Bool) (rn rd rs : Reg) (bit7 : Bool) (ty : ShiftType) (rm : Reg)
  /-- ADC, immediate operand (R169, R75). -/
  | adcImm (c : Cond) (sf : Bool) (rn rd : Reg) (rotate : BitVec 4) (imm8 : BitVec 8)
  /-- ADC, register shifted by immediate (R169, R76). -/
  | adcShiftImm (c : Cond) (sf : Bool) (rn rd : Reg) (amount : BitVec 5) (ty : ShiftType) (rm : Reg)
  /-- ADC, register shifted by register (R169, R77). -/
  | adcShiftReg (c : Cond) (sf : Bool) (rn rd rs : Reg) (bit7 : Bool) (ty : ShiftType) (rm : Reg)
  /-- SBC, immediate operand (R170, R75). -/
  | sbcImm (c : Cond) (sf : Bool) (rn rd : Reg) (rotate : BitVec 4) (imm8 : BitVec 8)
  /-- SBC, register shifted by immediate (R170, R76). -/
  | sbcShiftImm (c : Cond) (sf : Bool) (rn rd : Reg) (amount : BitVec 5) (ty : ShiftType) (rm : Reg)
  /-- SBC, register shifted by register (R170, R77). -/
  | sbcShiftReg (c : Cond) (sf : Bool) (rn rd rs : Reg) (bit7 : Bool) (ty : ShiftType) (rm : Reg)
  /-- RSC, immediate operand (R171, R75). -/
  | rscImm (c : Cond) (sf : Bool) (rn rd : Reg) (rotate : BitVec 4) (imm8 : BitVec 8)
  /-- RSC, register shifted by immediate (R171, R76). -/
  | rscShiftImm (c : Cond) (sf : Bool) (rn rd : Reg) (amount : BitVec 5) (ty : ShiftType) (rm : Reg)
  /-- RSC, register shifted by register (R171, R77). -/
  | rscShiftReg (c : Cond) (sf : Bool) (rn rd rs : Reg) (bit7 : Bool) (ty : ShiftType) (rm : Reg)
  /-- TST, immediate operand (R172, R75). -/
  | tstImm (c : Cond) (sf : Bool) (rn rd : Reg) (rotate : BitVec 4) (imm8 : BitVec 8)
  /-- TST, register shifted by immediate (R172, R76). -/
  | tstShiftImm (c : Cond) (sf : Bool) (rn rd : Reg) (amount : BitVec 5) (ty : ShiftType) (rm : Reg)
  /-- TST, register shifted by register (R172, R77). -/
  | tstShiftReg (c : Cond) (sf : Bool) (rn rd rs : Reg) (bit7 : Bool) (ty : ShiftType) (rm : Reg)
  /-- TEQ, immediate operand (R173, R75). -/
  | teqImm (c : Cond) (sf : Bool) (rn rd : Reg) (rotate : BitVec 4) (imm8 : BitVec 8)
  /-- TEQ, register shifted by immediate (R173, R76). -/
  | teqShiftImm (c : Cond) (sf : Bool) (rn rd : Reg) (amount : BitVec 5) (ty : ShiftType) (rm : Reg)
  /-- TEQ, register shifted by register (R173, R77). -/
  | teqShiftReg (c : Cond) (sf : Bool) (rn rd rs : Reg) (bit7 : Bool) (ty : ShiftType) (rm : Reg)
  /-- CMP, immediate operand (R174, R75). -/
  | cmpImm (c : Cond) (sf : Bool) (rn rd : Reg) (rotate : BitVec 4) (imm8 : BitVec 8)
  /-- CMP, register shifted by immediate (R174, R76). -/
  | cmpShiftImm (c : Cond) (sf : Bool) (rn rd : Reg) (amount : BitVec 5) (ty : ShiftType) (rm : Reg)
  /-- CMP, register shifted by register (R174, R77). -/
  | cmpShiftReg (c : Cond) (sf : Bool) (rn rd rs : Reg) (bit7 : Bool) (ty : ShiftType) (rm : Reg)
  /-- CMN, immediate operand (R175, R75). -/
  | cmnImm (c : Cond) (sf : Bool) (rn rd : Reg) (rotate : BitVec 4) (imm8 : BitVec 8)
  /-- CMN, register shifted by immediate (R175, R76). -/
  | cmnShiftImm (c : Cond) (sf : Bool) (rn rd : Reg) (amount : BitVec 5) (ty : ShiftType) (rm : Reg)
  /-- CMN, register shifted by register (R175, R77). -/
  | cmnShiftReg (c : Cond) (sf : Bool) (rn rd rs : Reg) (bit7 : Bool) (ty : ShiftType) (rm : Reg)
  /-- ORR, immediate operand (R176, R75). -/
  | orrImm (c : Cond) (sf : Bool) (rn rd : Reg) (rotate : BitVec 4) (imm8 : BitVec 8)
  /-- ORR, register shifted by immediate (R176, R76). -/
  | orrShiftImm (c : Cond) (sf : Bool) (rn rd : Reg) (amount : BitVec 5) (ty : ShiftType) (rm : Reg)
  /-- ORR, register shifted by register (R176, R77). -/
  | orrShiftReg (c : Cond) (sf : Bool) (rn rd rs : Reg) (bit7 : Bool) (ty : ShiftType) (rm : Reg)
  /-- MOV, immediate operand (R177, R75). -/
  | movImm (c : Cond) (sf : Bool) (rn rd : Reg) (rotate : BitVec 4) (imm8 : BitVec 8)
  /-- MOV, register shifted by immediate (R177, R76). -/
  | movShiftImm (c : Cond) (sf : Bool) (rn rd : Reg) (amount : BitVec 5) (ty : ShiftType) (rm : Reg)
  /-- MOV, register shifted by register (R177, R77). -/
  | movShiftReg (c : Cond) (sf : Bool) (rn rd rs : Reg) (bit7 : Bool) (ty : ShiftType) (rm : Reg)
  /-- BIC, immediate operand (R178, R75). -/
  | bicImm (c : Cond) (sf : Bool) (rn rd : Reg) (rotate : BitVec 4) (imm8 : BitVec 8)
  /-- BIC, register shifted by immediate (R178, R76). -/
  | bicShiftImm (c : Cond) (sf : Bool) (rn rd : Reg) (amount : BitVec 5) (ty : ShiftType) (rm : Reg)
  /-- BIC, register shifted by register (R178, R77). -/
  | bicShiftReg (c : Cond) (sf : Bool) (rn rd rs : Reg) (bit7 : Bool) (ty : ShiftType) (rm : Reg)
  /-- MVN, immediate operand (R179, R75). -/
  | mvnImm (c : Cond) (sf : Bool) (rn rd : Reg) (rotate : BitVec 4) (imm8 : BitVec 8)
  /-- MVN, register shifted by immediate (R179, R76). -/
  | mvnShiftImm (c : Cond) (sf : Bool) (rn rd : Reg) (amount : BitVec 5) (ty : ShiftType) (rm : Reg)
  /-- MVN, register shifted by register (R179, R77). -/
  | mvnShiftReg (c : Cond) (sf : Bool) (rn rd rs : Reg) (bit7 : Bool) (ty : ShiftType) (rm : Reg)
  /-- Load, register offset shifted by immediate (R214). -/
  | ldrReg (c : Cond) (b24 u b22 b21 : Bool) (rn rd : Reg) (amount : BitVec 5) (ty : ShiftType) (rm : Reg)
  /-- Load with I = 1 and bit 4 = 1 (R216); `offHi` is bits 11-5 and `offLo` bits 3-0 of the opcode. -/
  | ldrRegBit4 (c : Cond) (b24 u b22 b21 : Bool) (rn rd : Reg) (offHi : BitVec 7) (offLo : BitVec 4)
  /-- Load, immediate offset (R215). -/
  | ldrImm (c : Cond) (b24 u b22 b21 : Bool) (rn rd : Reg) (imm12 : BitVec 12)
  /-- Store; `i` is bit 25 (R217). -/
  | str (c : Cond) (i b24 u b22 b21 : Bool) (rn rd : Reg) (offset : BitVec 12)
  /-- Preload: condition field 1111; `rest` is bits 25-0 (R218). -/
  | pld (rest : BitVec 26)
  /-- Undecodable, bits 27-25 = 100 (R82). -/
  | undecodable100 (c : Cond) (rest : BitVec 25)
  /-- Undecodable, bits 27-25 = 110 (R82). -/
  | undecodable110 (c : Cond) (rest : BitVec 25)
  /-- Undecodable, bits 27-25 = 111 (R82). -/
  | undecodable111 (c : Cond) (rest : BitVec 25)
  deriving DecidableEq, Repr

/-- The data-processing instruction of operation `k` with operand 2 `o`: which of the 48 constructors it is
(30_encoding.md R72: the ALU opcode space is the same in all three forms). -/
def Instr.dataProcessing (k : AluOp) (c : Cond) (sf : Bool) (rn rd : Reg) (o : Operand2) : Instr :=
  match k, o with
  | .and, .imm rotate imm8 => .andImm c sf rn rd rotate imm8
  | .and, .shiftImm amount ty rm => .andShiftImm c sf rn rd amount ty rm
  | .and, .shiftReg rs bit7 ty rm => .andShiftReg c sf rn rd rs bit7 ty rm
  | .eor, .imm rotate imm8 => .eorImm c sf rn rd rotate imm8
  | .eor, .shiftImm amount ty rm => .eorShiftImm c sf rn rd amount ty rm
  | .eor, .shiftReg rs bit7 ty rm => .eorShiftReg c sf rn rd rs bit7 ty rm
  | .sub, .imm rotate imm8 => .subImm c sf rn rd rotate imm8
  | .sub, .shiftImm amount ty rm => .subShiftImm c sf rn rd amount ty rm
  | .sub, .shiftReg rs bit7 ty rm => .subShiftReg c sf rn rd rs bit7 ty rm
  | .rsb, .imm rotate imm8 => .rsbImm c sf rn rd rotate imm8
  | .rsb, .shiftImm amount ty rm => .rsbShiftImm c sf rn rd amount ty rm
  | .rsb, .shiftReg rs bit7 ty rm => .rsbShiftReg c sf rn rd rs bit7 ty rm
  | .add, .imm rotate imm8 => .addImm c sf rn rd rotate imm8
  | .add, .shiftImm amount ty rm => .addShiftImm c sf rn rd amount ty rm
  | .add, .shiftReg rs bit7 ty rm => .addShiftReg c sf rn rd rs bit7 ty rm
  | .adc, .imm rotate imm8 => .adcImm c sf rn rd rotate imm8
  | .adc, .shiftImm amount ty rm => .adcShiftImm c sf rn rd amount ty rm
  | .adc, .shiftReg rs bit7 ty rm => .adcShiftReg c sf rn rd rs bit7 ty rm
  | .sbc, .imm rotate imm8 => .sbcImm c sf rn rd rotate imm8
  | .sbc, .shiftImm amount ty rm => .sbcShiftImm c sf rn rd amount ty rm
  | .sbc, .shiftReg rs bit7 ty rm => .sbcShiftReg c sf rn rd rs bit7 ty rm
  | .rsc, .imm rotate imm8 => .rscImm c sf rn rd rotate imm8
  | .rsc, .shiftImm amount ty rm => .rscShiftImm c sf rn rd amount ty rm
  | .rsc, .shiftReg rs bit7 ty rm => .rscShiftReg c sf rn rd rs bit7 ty rm
  | .tst, .imm rotate imm8 => .tstImm c sf rn rd rotate imm8
  | .tst, .shiftImm amount ty rm => .tstShiftImm c sf rn rd amount ty rm
  | .tst, .shiftReg rs bit7 ty rm => .tstShiftReg c sf rn rd rs bit7 ty rm
  | .teq, .imm rotate imm8 => .teqImm c sf rn rd rotate imm8
  | .teq, .shiftImm amount ty rm => .teqShiftImm c sf rn rd amount ty rm
  | .teq, .shiftReg rs bit7 ty rm => .teqShiftReg c sf rn rd rs bit7 ty rm
  | .cmp, .imm rotate imm8 => .cmpImm c sf rn rd rotate imm8
  | .cmp, .shiftImm amount ty rm => .cmpShiftImm c sf rn rd amount ty rm
  | .cmp, .shiftReg rs bit7 ty rm => .cmpShiftReg c sf rn rd rs bit7 ty rm
  | .cmn, .imm rotate imm8 => .cmnImm c sf rn rd rotate imm8
  | .cmn, .shiftImm amount ty rm => .cmnShiftImm c sf rn rd amount ty rm
  | .cmn, .shiftReg rs bit7 ty rm => .cmnShiftReg c sf rn rd rs bit7 ty rm
  | .orr, .imm rotate imm8 => .orrImm c sf rn rd rotate imm8
  | .orr, .shiftImm amount ty rm => .orrShiftImm c sf rn rd amount ty rm
  | .orr, .shiftReg rs bit7 ty rm => .orrShiftReg c sf rn rd rs bit7 ty rm
  | .mov, .imm rotate imm8 => .movImm c sf rn rd rotate imm8
  | .mov, .shiftImm amount ty rm => .movShiftImm c sf rn rd amount ty rm
  | .mov, .shiftReg rs bit7 ty rm => .movShiftReg c sf rn rd rs bit7 ty rm
  | .bic, .imm rotate imm8 => .bicImm c sf rn rd rotate imm8
  | .bic, .shiftImm amount ty rm => .bicShiftImm c sf rn rd amount ty rm
  | .bic, .shiftReg rs bit7 ty rm => .bicShiftReg c sf rn rd rs bit7 ty rm
  | .mvn, .imm rotate imm8 => .mvnImm c sf rn rd rotate imm8
  | .mvn, .shiftImm amount ty rm => .mvnShiftImm c sf rn rd amount ty rm
  | .mvn, .shiftReg rs bit7 ty rm => .mvnShiftReg c sf rn rd rs bit7 ty rm

/-- The fields of a data-processing instruction (30_encoding.md R74). -/
structure DataProcessing where
  op : AluOp
  cond : Cond
  setFlags : Bool
  rn : Reg
  rd : Reg
  op2 : Operand2
  deriving DecidableEq, Repr

/-- The fields of an instruction of the class DataProcessing, `none` for the other classes (30_encoding.md R72). -/
def Instr.dataProcessing? : Instr → Option DataProcessing
  | .andImm c sf rn rd rotate imm8 => some ⟨.and, c, sf, rn, rd, .imm rotate imm8⟩
  | .andShiftImm c sf rn rd amount ty rm => some ⟨.and, c, sf, rn, rd, .shiftImm amount ty rm⟩
  | .andShiftReg c sf rn rd rs bit7 ty rm => some ⟨.and, c, sf, rn, rd, .shiftReg rs bit7 ty rm⟩
  | .eorImm c sf rn rd rotate imm8 => some ⟨.eor, c, sf, rn, rd, .imm rotate imm8⟩
  | .eorShiftImm c sf rn rd amount ty rm => some ⟨.eor, c, sf, rn, rd, .shiftImm amount ty rm⟩
  | .eorShiftReg c sf rn rd rs bit7 ty rm => some ⟨.eor, c, sf, rn, rd, .shiftReg rs bit7 ty rm⟩
  | .subImm c sf rn rd rotate imm8 => some ⟨.sub, c, sf, rn, rd, .imm rotate imm8⟩
  | .subShiftImm c sf rn rd amount ty rm => some ⟨.sub, c, sf, rn, rd, .shiftImm amount ty rm⟩
  | .subShiftReg c sf rn rd rs bit7 ty rm => some ⟨.sub, c, sf, rn, rd, .shiftReg rs bit7 ty rm⟩
  | .rsbImm c sf rn rd rotate imm8 => some ⟨.rsb, c, sf, rn, rd, .imm rotate imm8⟩
  | .rsbShiftImm c sf rn rd amount ty rm => some ⟨.rsb, c, sf, rn, rd, .shiftImm amount ty rm⟩
  | .rsbShiftReg c sf rn rd rs bit7 ty rm => some ⟨.rsb, c, sf, rn, rd, .shiftReg rs bit7 ty rm⟩
  | .addImm c sf rn rd rotate imm8 => some ⟨.add, c, sf, rn, rd, .imm rotate imm8⟩
  | .addShiftImm c sf rn rd amount ty rm => some ⟨.add, c, sf, rn, rd, .shiftImm amount ty rm⟩
  | .addShiftReg c sf rn rd rs bit7 ty rm => some ⟨.add, c, sf, rn, rd, .shiftReg rs bit7 ty rm⟩
  | .adcImm c sf rn rd rotate imm8 => some ⟨.adc, c, sf, rn, rd, .imm rotate imm8⟩
  | .adcShiftImm c sf rn rd amount ty rm => some ⟨.adc, c, sf, rn, rd, .shiftImm amount ty rm⟩
  | .adcShiftReg c sf rn rd rs bit7 ty rm => some ⟨.adc, c, sf, rn, rd, .shiftReg rs bit7 ty rm⟩
  | .sbcImm c sf rn rd rotate imm8 => some ⟨.sbc, c, sf, rn, rd, .imm rotate imm8⟩
  | .sbcShiftImm c sf rn rd amount ty rm => some ⟨.sbc, c, sf, rn, rd, .shiftImm amount ty rm⟩
  | .sbcShiftReg c sf rn rd rs bit7 ty rm => some ⟨.sbc, c, sf, rn, rd, .shiftReg rs bit7 ty rm⟩
  | .rscImm c sf rn rd rotate imm8 => some ⟨.rsc, c, sf, rn, rd, .imm rotate imm8⟩
  | .rscShiftImm c sf rn rd amount ty rm => some ⟨.rsc, c, sf, rn, rd, .shiftImm amount ty rm⟩
  | .rscShiftReg c sf rn rd rs bit7 ty rm => some ⟨.rsc, c, sf, rn, rd, .shiftReg rs bit7 ty rm⟩
  | .tstImm c sf rn rd rotate imm8 => some ⟨.tst, c, sf, rn, rd, .imm rotate imm8⟩
  | .tstShiftImm c sf rn rd amount ty rm => some ⟨.tst, c, sf, rn, rd, .shiftImm amount ty rm⟩
  | .tstShiftReg c sf rn rd rs bit7 ty rm => some ⟨.tst, c, sf, rn, rd, .shiftReg rs bit7 ty rm⟩
  | .teqImm c sf rn rd rotate imm8 => some ⟨.teq, c, sf, rn, rd, .imm rotate imm8⟩
  | .teqShiftImm c sf rn rd amount ty rm => some ⟨.teq, c, sf, rn, rd, .shiftImm amount ty rm⟩
  | .teqShiftReg c sf rn rd rs bit7 ty rm => some ⟨.teq, c, sf, rn, rd, .shiftReg rs bit7 ty rm⟩
  | .cmpImm c sf rn rd rotate imm8 => some ⟨.cmp, c, sf, rn, rd, .imm rotate imm8⟩
  | .cmpShiftImm c sf rn rd amount ty rm => some ⟨.cmp, c, sf, rn, rd, .shiftImm amount ty rm⟩
  | .cmpShiftReg c sf rn rd rs bit7 ty rm => some ⟨.cmp, c, sf, rn, rd, .shiftReg rs bit7 ty rm⟩
  | .cmnImm c sf rn rd rotate imm8 => some ⟨.cmn, c, sf, rn, rd, .imm rotate imm8⟩
  | .cmnShiftImm c sf rn rd amount ty rm => some ⟨.cmn, c, sf, rn, rd, .shiftImm amount ty rm⟩
  | .cmnShiftReg c sf rn rd rs bit7 ty rm => some ⟨.cmn, c, sf, rn, rd, .shiftReg rs bit7 ty rm⟩
  | .orrImm c sf rn rd rotate imm8 => some ⟨.orr, c, sf, rn, rd, .imm rotate imm8⟩
  | .orrShiftImm c sf rn rd amount ty rm => some ⟨.orr, c, sf, rn, rd, .shiftImm amount ty rm⟩
  | .orrShiftReg c sf rn rd rs bit7 ty rm => some ⟨.orr, c, sf, rn, rd, .shiftReg rs bit7 ty rm⟩
  | .movImm c sf rn rd rotate imm8 => some ⟨.mov, c, sf, rn, rd, .imm rotate imm8⟩
  | .movShiftImm c sf rn rd amount ty rm => some ⟨.mov, c, sf, rn, rd, .shiftImm amount ty rm⟩
  | .movShiftReg c sf rn rd rs bit7 ty rm => some ⟨.mov, c, sf, rn, rd, .shiftReg rs bit7 ty rm⟩
  | .bicImm c sf rn rd rotate imm8 => some ⟨.bic, c, sf, rn, rd, .imm rotate imm8⟩
  | .bicShiftImm c sf rn rd amount ty rm => some ⟨.bic, c, sf, rn, rd, .shiftImm amount ty rm⟩
  | .bicShiftReg c sf rn rd rs bit7 ty rm => some ⟨.bic, c, sf, rn, rd, .shiftReg rs bit7 ty rm⟩
  | .mvnImm c sf rn rd rotate imm8 => some ⟨.mvn, c, sf, rn, rd, .imm rotate imm8⟩
  | .mvnShiftImm c sf rn rd amount ty rm => some ⟨.mvn, c, sf, rn, rd, .shiftImm amount ty rm⟩
  | .mvnShiftReg c sf rn rd rs bit7 ty rm => some ⟨.mvn, c, sf, rn, rd, .shiftReg rs bit7 ty rm⟩
  | .b _ _ | .bl _ _ | .ldrReg _ _ _ _ _ _ _ _ _ _ | .ldrRegBit4 _ _ _ _ _ _ _ _ _ => none
  | .ldrImm _ _ _ _ _ _ _ _ | .str _ _ _ _ _ _ _ _ _ | .pld _ => none
  | .undecodable100 _ _ | .undecodable110 _ _ | .undecodable111 _ _ => none

/-- The condition field of an instruction (30_encoding.md R71; a preload carries 1111, R81). -/
def Instr.cond : Instr → Cond
  | .b c _ | .bl c _ => c
  | .andImm c _ _ _ _ _ | .andShiftImm c _ _ _ _ _ _ | .andShiftReg c _ _ _ _ _ _ _ => c
  | .eorImm c _ _ _ _ _ | .eorShiftImm c _ _ _ _ _ _ | .eorShiftReg c _ _ _ _ _ _ _ => c
  | .subImm c _ _ _ _ _ | .subShiftImm c _ _ _ _ _ _ | .subShiftReg c _ _ _ _ _ _ _ => c
  | .rsbImm c _ _ _ _ _ | .rsbShiftImm c _ _ _ _ _ _ | .rsbShiftReg c _ _ _ _ _ _ _ => c
  | .addImm c _ _ _ _ _ | .addShiftImm c _ _ _ _ _ _ | .addShiftReg c _ _ _ _ _ _ _ => c
  | .adcImm c _ _ _ _ _ | .adcShiftImm c _ _ _ _ _ _ | .adcShiftReg c _ _ _ _ _ _ _ => c
  | .sbcImm c _ _ _ _ _ | .sbcShiftImm c _ _ _ _ _ _ | .sbcShiftReg c _ _ _ _ _ _ _ => c
  | .rscImm c _ _ _ _ _ | .rscShiftImm c _ _ _ _ _ _ | .rscShiftReg c _ _ _ _ _ _ _ => c
  | .tstImm c _ _ _ _ _ | .tstShiftImm c _ _ _ _ _ _ | .tstShiftReg c _ _ _ _ _ _ _ => c
  | .teqImm c _ _ _ _ _ | .teqShiftImm c _ _ _ _ _ _ | .teqShiftReg c _ _ _ _ _ _ _ => c
  | .cmpImm c _ _ _ _ _ | .cmpShiftImm c _ _ _ _ _ _ | .cmpShiftReg c _ _ _ _ _ _ _ => c
  | .cmnImm c _ _ _ _ _ | .cmnShiftImm c _ _ _ _ _ _ | .cmnShiftReg c _ _ _ _ _ _ _ => c
  | .orrImm c _ _ _ _ _ | .orrShiftImm c _ _ _ _ _ _ | .orrShiftReg c _ _ _ _ _ _ _ => c
  | .movImm c _ _ _ _ _ | .movShiftImm c _ _ _ _ _ _ | .movShiftReg c _ _ _ _ _ _ _ => c
  | .bicImm c _ _ _ _ _ | .bicShiftImm c _ _ _ _ _ _ | .bicShiftReg c _ _ _ _ _ _ _ => c
  | .mvnImm c _ _ _ _ _ | .mvnShiftImm c _ _ _ _ _ _ | .mvnShiftReg c _ _ _ _ _ _ _ => c
  | .ldrReg c _ _ _ _ _ _ _ _ _ | .ldrRegBit4 c _ _ _ _ _ _ _ _ | .ldrImm c _ _ _ _ _ _ _ => c
  | .str c _ _ _ _ _ _ _ _ => c
  | .pld _ => .nv
  | .undecodable100 c _ | .undecodable110 c _ | .undecodable111 c _ => c

end Sys2Proof
end

