-- ==== Sys2Proof/WellFormed.lean ====
section
/-! DEFINITION. Which terms of Instr are the decoding of some word. The only condition a constructor's types do not
carry is that a load or a store never has the condition field 1111: such a word is a preload (30_encoding.md R81, R90). -/

namespace Sys2Proof

/-- `i` is an instruction some word encodes: a load or store does not carry condition 1111 (30_encoding.md R81). -/
def Instr.wellFormed (i : Instr) : Bool :=
  match i with
  | .ldrReg c _ _ _ _ _ _ _ _ _ => c != .nv
  | .ldrRegBit4 c _ _ _ _ _ _ _ _ => c != .nv
  | .ldrImm c _ _ _ _ _ _ _ => c != .nv
  | .str c _ _ _ _ _ _ _ _ => c != .nv
  | .b _ _ | .bl _ _ => true
  | .andImm _ _ _ _ _ _ | .andShiftImm _ _ _ _ _ _ _ | .andShiftReg _ _ _ _ _ _ _ _ => true
  | .eorImm _ _ _ _ _ _ | .eorShiftImm _ _ _ _ _ _ _ | .eorShiftReg _ _ _ _ _ _ _ _ => true
  | .subImm _ _ _ _ _ _ | .subShiftImm _ _ _ _ _ _ _ | .subShiftReg _ _ _ _ _ _ _ _ => true
  | .rsbImm _ _ _ _ _ _ | .rsbShiftImm _ _ _ _ _ _ _ | .rsbShiftReg _ _ _ _ _ _ _ _ => true
  | .addImm _ _ _ _ _ _ | .addShiftImm _ _ _ _ _ _ _ | .addShiftReg _ _ _ _ _ _ _ _ => true
  | .adcImm _ _ _ _ _ _ | .adcShiftImm _ _ _ _ _ _ _ | .adcShiftReg _ _ _ _ _ _ _ _ => true
  | .sbcImm _ _ _ _ _ _ | .sbcShiftImm _ _ _ _ _ _ _ | .sbcShiftReg _ _ _ _ _ _ _ _ => true
  | .rscImm _ _ _ _ _ _ | .rscShiftImm _ _ _ _ _ _ _ | .rscShiftReg _ _ _ _ _ _ _ _ => true
  | .tstImm _ _ _ _ _ _ | .tstShiftImm _ _ _ _ _ _ _ | .tstShiftReg _ _ _ _ _ _ _ _ => true
  | .teqImm _ _ _ _ _ _ | .teqShiftImm _ _ _ _ _ _ _ | .teqShiftReg _ _ _ _ _ _ _ _ => true
  | .cmpImm _ _ _ _ _ _ | .cmpShiftImm _ _ _ _ _ _ _ | .cmpShiftReg _ _ _ _ _ _ _ _ => true
  | .cmnImm _ _ _ _ _ _ | .cmnShiftImm _ _ _ _ _ _ _ | .cmnShiftReg _ _ _ _ _ _ _ _ => true
  | .orrImm _ _ _ _ _ _ | .orrShiftImm _ _ _ _ _ _ _ | .orrShiftReg _ _ _ _ _ _ _ _ => true
  | .movImm _ _ _ _ _ _ | .movShiftImm _ _ _ _ _ _ _ | .movShiftReg _ _ _ _ _ _ _ _ => true
  | .bicImm _ _ _ _ _ _ | .bicShiftImm _ _ _ _ _ _ _ | .bicShiftReg _ _ _ _ _ _ _ _ => true
  | .mvnImm _ _ _ _ _ _ | .mvnShiftImm _ _ _ _ _ _ _ | .mvnShiftReg _ _ _ _ _ _ _ _ => true
  | .pld _ | .undecodable100 _ _ | .undecodable110 _ _ | .undecodable111 _ _ => true

end Sys2Proof
end

