-- ==== Sys2Proof/Decode.lean ====
section
/-! DEFINITION. The decoder (30_encoding.md R72: a pure and total function of the opcode), the encoder written from
the same formats (R73 to R81), the rows of the opcode table (R90), and the byte order of an opcode (20_memory.md R51). -/

namespace Sys2Proof

/-- The number of a condition (30_encoding.md R71). -/
def Cond.toBits : Cond → BitVec 4
  | .eq => 0 | .ne => 1 | .cs => 2 | .cc => 3 | .mi => 4 | .pl => 5 | .vs => 6 | .vc => 7
  | .hi => 8 | .ls => 9 | .ge => 10 | .lt => 11 | .gt => 12 | .le => 13 | .al => 14 | .nv => 15

/-- The condition of a condition field (30_encoding.md R71). -/
def Cond.ofBits (v : BitVec 4) : Cond :=
  match v with
  | 0 => .eq | 1 => .ne | 2 => .cs | 3 => .cc | 4 => .mi | 5 => .pl | 6 => .vs | 7 => .vc
  | 8 => .hi | 9 => .ls | 10 => .ge | 11 => .lt | 12 => .gt | 13 => .le | 14 => .al | _ => .nv

/-- The number of a shift type (30_encoding.md R79). -/
def ShiftType.toBits : ShiftType → BitVec 2
  | .lsl => 0 | .lsr => 1 | .asr => 2 | .ror => 3

/-- The shift type of a two-bit field (30_encoding.md R79). -/
def ShiftType.ofBits (v : BitVec 2) : ShiftType :=
  match v with
  | 0 => .lsl | 1 => .lsr | 2 => .asr | _ => .ror

/-- The ALU opcode of an operation (30_encoding.md R78). -/
def AluOp.toBits : AluOp → BitVec 4
  | .and => 0 | .eor => 1 | .sub => 2 | .rsb => 3 | .add => 4 | .adc => 5 | .sbc => 6 | .rsc => 7
  | .tst => 8 | .teq => 9 | .cmp => 10 | .cmn => 11 | .orr => 12 | .mov => 13 | .bic => 14 | .mvn => 15

/-- The operation of an ALU opcode (30_encoding.md R78). -/
def AluOp.ofBits (v : BitVec 4) : AluOp :=
  match v with
  | 0 => .and | 1 => .eor | 2 => .sub | 3 => .rsb | 4 => .add | 5 => .adc | 6 => .sbc | 7 => .rsc
  | 8 => .tst | 9 => .teq | 10 => .cmp | 11 => .cmn | 12 => .orr | 13 => .mov | 14 => .bic | _ => .mvn

/-- The register of a four-bit field (10_state.md R22). -/
def regOfBits (v : BitVec 4) : Reg := v.toFin

/-- The four-bit field of a register (10_state.md R22). -/
def regToBits (r : Reg) : BitVec 4 := BitVec.ofFin r

/-- Bits `lo + n - 1` down to `lo` of an opcode (00_scope.md R10). -/
def field (w : Word) (lo n : Nat) : BitVec n := w.extractLsb' lo n

/-- The field `v` of an opcode placed with its lowest bit at `lo` (00_scope.md R10). -/
def place {n : Nat} (lo : Nat) (v : BitVec n) : Word := v.setWidth 32 <<< lo

/-- The register field whose lowest bit is `lo`. -/
def regField (w : Word) (lo : Nat) : Reg := regOfBits (field w lo 4)

/-- The condition field, bits 31-28, of every opcode (30_encoding.md R71). -/
def condField (w : Word) : Cond := Cond.ofBits (field w 28 4)

/-- Operand 2 of an opcode with bits 27-26 = 00 (30_encoding.md R72, R75, R76, R77): bit 25 selects the immediate
form, bit 4 the shift by register. -/
def decodeOperand2 (w : Word) : Operand2 :=
  if w.getLsbD 25 then .imm (field w 8 4) (field w 0 8)
  else if w.getLsbD 4 then .shiftReg (regField w 8) (w.getLsbD 7) (ShiftType.ofBits (field w 5 2)) (regField w 0)
  else .shiftImm (field w 7 5) (ShiftType.ofBits (field w 5 2)) (regField w 0)

/-- An opcode with bits 27-26 = 00 (30_encoding.md R74). -/
def decodeDataProcessing (w : Word) : Instr :=
  .dataProcessing (AluOp.ofBits (field w 21 4)) (condField w) (w.getLsbD 20) (regField w 16) (regField w 12)
    (decodeOperand2 w)

/-- An opcode with bits 27-26 = 01, in the order of 30_encoding.md R81 and 44_single_data_transfer.md R221:
preload, store, load with immediate offset, load with bit 4 set, load with register offset. -/
def decodeTransfer (w : Word) : Instr :=
  if condField w = .nv then .pld (field w 0 26)
  else if !w.getLsbD 20 then
    .str (condField w) (w.getLsbD 25) (w.getLsbD 24) (w.getLsbD 23) (w.getLsbD 22) (w.getLsbD 21)
      (regField w 16) (regField w 12) (field w 0 12)
  else if !w.getLsbD 25 then
    .ldrImm (condField w) (w.getLsbD 24) (w.getLsbD 23) (w.getLsbD 22) (w.getLsbD 21)
      (regField w 16) (regField w 12) (field w 0 12)
  else if w.getLsbD 4 then
    .ldrRegBit4 (condField w) (w.getLsbD 24) (w.getLsbD 23) (w.getLsbD 22) (w.getLsbD 21)
      (regField w 16) (regField w 12) (field w 5 7) (field w 0 4)
  else
    .ldrReg (condField w) (w.getLsbD 24) (w.getLsbD 23) (w.getLsbD 22) (w.getLsbD 21)
      (regField w 16) (regField w 12) (field w 7 5) (ShiftType.ofBits (field w 5 2)) (regField w 0)

/-- The decoder: the tests of 30_encoding.md R72 in the source's order; the three patterns that match none of them
are the undecodable rows (R82, log entry 7). -/
def decode (w : Word) : Instr :=
  if field w 25 3 = 0b101#3 then
    if w.getLsbD 24 then .bl (condField w) (field w 0 24) else .b (condField w) (field w 0 24)
  else if field w 26 2 = 0b00#2 then decodeDataProcessing w
  else if field w 26 2 = 0b01#2 then decodeTransfer w
  else if field w 25 3 = 0b100#3 then .undecodable100 (condField w) (field w 0 25)
  else if field w 25 3 = 0b110#3 then .undecodable110 (condField w) (field w 0 25)
  else .undecodable111 (condField w) (field w 0 25)

/-- The word of four bytes, the one at the lowest offset in bits 7-0 (20_memory.md R51: little-endian). -/
def wordOfBytes (b0 b1 b2 b3 : Byte) : Word := place 24 b3 ||| place 16 b2 ||| place 8 b1 ||| place 0 b0

/-- Why bytes do not decode: every word decodes (30_encoding.md R87), so only a lack of bytes can refuse. -/
inductive DecodeError where
  /-- fewer than four bytes are left (30_encoding.md R70: an instruction is one 32-bit word) -/
  | tooShort
  deriving DecidableEq, Repr

/-- The instruction at the head of a list of bytes, and the bytes after it (30_encoding.md R70, 20_memory.md R51). -/
def decodeBytes : List Byte → Except DecodeError (Instr × List Byte)
  | b0 :: b1 :: b2 :: b3 :: rest => .ok (decode (wordOfBytes b0 b1 b2 b3), rest)
  | _ => .error .tooShort

/-- The four bytes of a word as the code image holds them, lowest offset first (20_memory.md R51). -/
def bytesOfWord (w : Word) : List Byte := [field w 0 8, field w 8 8, field w 16 8, field w 24 8]

/-- What the decoder reads from the opcode whose bits are `w` (bits at and above `nbits` taken as 0): the word is laid
out in the image's byte order and given to `decodeBytes`. -/
def decodeTableWord (nbits w : Nat) : Option Instr :=
  match decodeBytes (bytesOfWord (BitVec.ofNat 32 (w % 2 ^ nbits))) with
  | .ok (i, _) => some i
  | .error _ => none

/-- A shifted-register operand: bits 11-7, 6-5, 4 and 3-0 of an opcode (30_encoding.md R76, R77, R80). -/
def encodeShiftedReg (high : BitVec 5) (ty : ShiftType) (bit4 : Bool) (rm : Reg) : Word :=
  place 7 high ||| place 5 ty.toBits ||| place 4 (BitVec.ofBool bit4) ||| place 0 (regToBits rm)

/-- Bits 11-0 of a data-processing opcode (30_encoding.md R75, R76, R77). -/
def encodeOperand2 : Operand2 → Word
  | .imm rotate imm8 => place 8 rotate ||| place 0 imm8
  | .shiftImm amount ty rm => encodeShiftedReg amount ty false rm
  | .shiftReg rs bit7 ty rm =>
    place 8 (regToBits rs) ||| place 7 (BitVec.ofBool bit7) ||| place 5 ty.toBits ||| place 4 0b1#1
      ||| place 0 (regToBits rm)

/-- The I bit of a data-processing opcode: 1 for the immediate form (30_encoding.md R74). -/
def Operand2.isImm : Operand2 → Bool
  | .imm _ _ => true
  | .shiftImm _ _ _ | .shiftReg _ _ _ _ => false

/-- A branch opcode; `l` is bit 24 (30_encoding.md R73). -/
def encodeBranch (c : Cond) (l : Bool) (offset24 : BitVec 24) : Word :=
  place 28 c.toBits ||| place 25 0b101#3 ||| place 24 (BitVec.ofBool l) ||| place 0 offset24

/-- A data-processing opcode (30_encoding.md R74). -/
def encodeDataProcessing (k : AluOp) (c : Cond) (sf : Bool) (rn rd : Reg) (o : Operand2) : Word :=
  place 28 c.toBits ||| place 26 0b00#2 ||| place 25 (BitVec.ofBool o.isImm) ||| place 21 k.toBits
    ||| place 20 (BitVec.ofBool sf) ||| place 16 (regToBits rn) ||| place 12 (regToBits rd) ||| encodeOperand2 o

/-- A single-data-transfer opcode, `offset` its bits 11-0 in place (30_encoding.md R80). -/
def encodeTransfer (c : Cond) (i b24 u b22 b21 l : Bool) (rn rd : Reg) (offset : Word) : Word :=
  place 28 c.toBits ||| place 26 0b01#2 ||| place 25 (BitVec.ofBool i) ||| place 24 (BitVec.ofBool b24)
    ||| place 23 (BitVec.ofBool u) ||| place 22 (BitVec.ofBool b22) ||| place 21 (BitVec.ofBool b21)
    ||| place 20 (BitVec.ofBool l) ||| place 16 (regToBits rn) ||| place 12 (regToBits rd) ||| offset

/-- The word of an instruction (30_encoding.md R73 to R82). -/
def encode : Instr → Word
  | .b c offset24 => encodeBranch c false offset24
  | .bl c offset24 => encodeBranch c true offset24
  | .andImm c sf rn rd rotate imm8 => encodeDataProcessing .and c sf rn rd (.imm rotate imm8)
  | .andShiftImm c sf rn rd amount ty rm => encodeDataProcessing .and c sf rn rd (.shiftImm amount ty rm)
  | .andShiftReg c sf rn rd rs bit7 ty rm => encodeDataProcessing .and c sf rn rd (.shiftReg rs bit7 ty rm)
  | .eorImm c sf rn rd rotate imm8 => encodeDataProcessing .eor c sf rn rd (.imm rotate imm8)
  | .eorShiftImm c sf rn rd amount ty rm => encodeDataProcessing .eor c sf rn rd (.shiftImm amount ty rm)
  | .eorShiftReg c sf rn rd rs bit7 ty rm => encodeDataProcessing .eor c sf rn rd (.shiftReg rs bit7 ty rm)
  | .subImm c sf rn rd rotate imm8 => encodeDataProcessing .sub c sf rn rd (.imm rotate imm8)
  | .subShiftImm c sf rn rd amount ty rm => encodeDataProcessing .sub c sf rn rd (.shiftImm amount ty rm)
  | .subShiftReg c sf rn rd rs bit7 ty rm => encodeDataProcessing .sub c sf rn rd (.shiftReg rs bit7 ty rm)
  | .rsbImm c sf rn rd rotate imm8 => encodeDataProcessing .rsb c sf rn rd (.imm rotate imm8)
  | .rsbShiftImm c sf rn rd amount ty rm => encodeDataProcessing .rsb c sf rn rd (.shiftImm amount ty rm)
  | .rsbShiftReg c sf rn rd rs bit7 ty rm => encodeDataProcessing .rsb c sf rn rd (.shiftReg rs bit7 ty rm)
  | .addImm c sf rn rd rotate imm8 => encodeDataProcessing .add c sf rn rd (.imm rotate imm8)
  | .addShiftImm c sf rn rd amount ty rm => encodeDataProcessing .add c sf rn rd (.shiftImm amount ty rm)
  | .addShiftReg c sf rn rd rs bit7 ty rm => encodeDataProcessing .add c sf rn rd (.shiftReg rs bit7 ty rm)
  | .adcImm c sf rn rd rotate imm8 => encodeDataProcessing .adc c sf rn rd (.imm rotate imm8)
  | .adcShiftImm c sf rn rd amount ty rm => encodeDataProcessing .adc c sf rn rd (.shiftImm amount ty rm)
  | .adcShiftReg c sf rn rd rs bit7 ty rm => encodeDataProcessing .adc c sf rn rd (.shiftReg rs bit7 ty rm)
  | .sbcImm c sf rn rd rotate imm8 => encodeDataProcessing .sbc c sf rn rd (.imm rotate imm8)
  | .sbcShiftImm c sf rn rd amount ty rm => encodeDataProcessing .sbc c sf rn rd (.shiftImm amount ty rm)
  | .sbcShiftReg c sf rn rd rs bit7 ty rm => encodeDataProcessing .sbc c sf rn rd (.shiftReg rs bit7 ty rm)
  | .rscImm c sf rn rd rotate imm8 => encodeDataProcessing .rsc c sf rn rd (.imm rotate imm8)
  | .rscShiftImm c sf rn rd amount ty rm => encodeDataProcessing .rsc c sf rn rd (.shiftImm amount ty rm)
  | .rscShiftReg c sf rn rd rs bit7 ty rm => encodeDataProcessing .rsc c sf rn rd (.shiftReg rs bit7 ty rm)
  | .tstImm c sf rn rd rotate imm8 => encodeDataProcessing .tst c sf rn rd (.imm rotate imm8)
  | .tstShiftImm c sf rn rd amount ty rm => encodeDataProcessing .tst c sf rn rd (.shiftImm amount ty rm)
  | .tstShiftReg c sf rn rd rs bit7 ty rm => encodeDataProcessing .tst c sf rn rd (.shiftReg rs bit7 ty rm)
  | .teqImm c sf rn rd rotate imm8 => encodeDataProcessing .teq c sf rn rd (.imm rotate imm8)
  | .teqShiftImm c sf rn rd amount ty rm => encodeDataProcessing .teq c sf rn rd (.shiftImm amount ty rm)
  | .teqShiftReg c sf rn rd rs bit7 ty rm => encodeDataProcessing .teq c sf rn rd (.shiftReg rs bit7 ty rm)
  | .cmpImm c sf rn rd rotate imm8 => encodeDataProcessing .cmp c sf rn rd (.imm rotate imm8)
  | .cmpShiftImm c sf rn rd amount ty rm => encodeDataProcessing .cmp c sf rn rd (.shiftImm amount ty rm)
  | .cmpShiftReg c sf rn rd rs bit7 ty rm => encodeDataProcessing .cmp c sf rn rd (.shiftReg rs bit7 ty rm)
  | .cmnImm c sf rn rd rotate imm8 => encodeDataProcessing .cmn c sf rn rd (.imm rotate imm8)
  | .cmnShiftImm c sf rn rd amount ty rm => encodeDataProcessing .cmn c sf rn rd (.shiftImm amount ty rm)
  | .cmnShiftReg c sf rn rd rs bit7 ty rm => encodeDataProcessing .cmn c sf rn rd (.shiftReg rs bit7 ty rm)
  | .orrImm c sf rn rd rotate imm8 => encodeDataProcessing .orr c sf rn rd (.imm rotate imm8)
  | .orrShiftImm c sf rn rd amount ty rm => encodeDataProcessing .orr c sf rn rd (.shiftImm amount ty rm)
  | .orrShiftReg c sf rn rd rs bit7 ty rm => encodeDataProcessing .orr c sf rn rd (.shiftReg rs bit7 ty rm)
  | .movImm c sf rn rd rotate imm8 => encodeDataProcessing .mov c sf rn rd (.imm rotate imm8)
  | .movShiftImm c sf rn rd amount ty rm => encodeDataProcessing .mov c sf rn rd (.shiftImm amount ty rm)
  | .movShiftReg c sf rn rd rs bit7 ty rm => encodeDataProcessing .mov c sf rn rd (.shiftReg rs bit7 ty rm)
  | .bicImm c sf rn rd rotate imm8 => encodeDataProcessing .bic c sf rn rd (.imm rotate imm8)
  | .bicShiftImm c sf rn rd amount ty rm => encodeDataProcessing .bic c sf rn rd (.shiftImm amount ty rm)
  | .bicShiftReg c sf rn rd rs bit7 ty rm => encodeDataProcessing .bic c sf rn rd (.shiftReg rs bit7 ty rm)
  | .mvnImm c sf rn rd rotate imm8 => encodeDataProcessing .mvn c sf rn rd (.imm rotate imm8)
  | .mvnShiftImm c sf rn rd amount ty rm => encodeDataProcessing .mvn c sf rn rd (.shiftImm amount ty rm)
  | .mvnShiftReg c sf rn rd rs bit7 ty rm => encodeDataProcessing .mvn c sf rn rd (.shiftReg rs bit7 ty rm)
  | .ldrReg c b24 u b22 b21 rn rd amount ty rm =>
    encodeTransfer c true b24 u b22 b21 true rn rd (encodeShiftedReg amount ty false rm)
  | .ldrRegBit4 c b24 u b22 b21 rn rd offHi offLo =>
    encodeTransfer c true b24 u b22 b21 true rn rd (place 5 offHi ||| place 4 0b1#1 ||| place 0 offLo)
  | .ldrImm c b24 u b22 b21 rn rd imm12 => encodeTransfer c false b24 u b22 b21 true rn rd (place 0 imm12)
  | .str c i b24 u b22 b21 rn rd offset => encodeTransfer c i b24 u b22 b21 false rn rd (place 0 offset)
  | .pld rest => place 28 0b1111#4 ||| place 26 0b01#2 ||| place 0 rest
  | .undecodable100 c rest => place 28 c.toBits ||| place 25 0b100#3 ||| place 0 rest
  | .undecodable110 c rest => place 28 c.toBits ||| place 25 0b110#3 ||| place 0 rest
  | .undecodable111 c rest => place 28 c.toBits ||| place 25 0b111#3 ||| place 0 rest

/-- One row of opcode_table.json: an opcode selects it when `op AND mask = value`, and, where `notPreload` is set (the
table's "unless"), its bits 31-28 are not 1111 (30_encoding.md R90). -/
structure OpcodeRow where
  value : Word
  mask : Word
  notPreload : Bool
  deriving DecidableEq, Repr

/-- The opcode `w` selects the row (30_encoding.md R90). -/
def OpcodeRow.selects (r : OpcodeRow) (w : Word) : Bool :=
  (w &&& r.mask == r.value) && !(r.notPreload && (w &&& 0xF0000000#32 == 0xF0000000#32))

/-- The row of an instruction, its match and mask copied from opcode_table.json (30_encoding.md R90). -/
def Instr.row : Instr → OpcodeRow
  | .b _ _ => ⟨0x0A000000, 0x0F000000, false⟩
  | .bl _ _ => ⟨0x0B000000, 0x0F000000, false⟩
  | .andImm _ _ _ _ _ _ => ⟨0x02000000, 0x0FE00000, false⟩
  | .andShiftImm _ _ _ _ _ _ _ => ⟨0x00000000, 0x0FE00010, false⟩
  | .andShiftReg _ _ _ _ _ _ _ _ => ⟨0x00000010, 0x0FE00010, false⟩
  | .eorImm _ _ _ _ _ _ => ⟨0x02200000, 0x0FE00000, false⟩
  | .eorShiftImm _ _ _ _ _ _ _ => ⟨0x00200000, 0x0FE00010, false⟩
  | .eorShiftReg _ _ _ _ _ _ _ _ => ⟨0x00200010, 0x0FE00010, false⟩
  | .subImm _ _ _ _ _ _ => ⟨0x02400000, 0x0FE00000, false⟩
  | .subShiftImm _ _ _ _ _ _ _ => ⟨0x00400000, 0x0FE00010, false⟩
  | .subShiftReg _ _ _ _ _ _ _ _ => ⟨0x00400010, 0x0FE00010, false⟩
  | .rsbImm _ _ _ _ _ _ => ⟨0x02600000, 0x0FE00000, false⟩
  | .rsbShiftImm _ _ _ _ _ _ _ => ⟨0x00600000, 0x0FE00010, false⟩
  | .rsbShiftReg _ _ _ _ _ _ _ _ => ⟨0x00600010, 0x0FE00010, false⟩
  | .addImm _ _ _ _ _ _ => ⟨0x02800000, 0x0FE00000, false⟩
  | .addShiftImm _ _ _ _ _ _ _ => ⟨0x00800000, 0x0FE00010, false⟩
  | .addShiftReg _ _ _ _ _ _ _ _ => ⟨0x00800010, 0x0FE00010, false⟩
  | .adcImm _ _ _ _ _ _ => ⟨0x02A00000, 0x0FE00000, false⟩
  | .adcShiftImm _ _ _ _ _ _ _ => ⟨0x00A00000, 0x0FE00010, false⟩
  | .adcShiftReg _ _ _ _ _ _ _ _ => ⟨0x00A00010, 0x0FE00010, false⟩
  | .sbcImm _ _ _ _ _ _ => ⟨0x02C00000, 0x0FE00000, false⟩
  | .sbcShiftImm _ _ _ _ _ _ _ => ⟨0x00C00000, 0x0FE00010, false⟩
  | .sbcShiftReg _ _ _ _ _ _ _ _ => ⟨0x00C00010, 0x0FE00010, false⟩
  | .rscImm _ _ _ _ _ _ => ⟨0x02E00000, 0x0FE00000, false⟩
  | .rscShiftImm _ _ _ _ _ _ _ => ⟨0x00E00000, 0x0FE00010, false⟩
  | .rscShiftReg _ _ _ _ _ _ _ _ => ⟨0x00E00010, 0x0FE00010, false⟩
  | .tstImm _ _ _ _ _ _ => ⟨0x03000000, 0x0FE00000, false⟩
  | .tstShiftImm _ _ _ _ _ _ _ => ⟨0x01000000, 0x0FE00010, false⟩
  | .tstShiftReg _ _ _ _ _ _ _ _ => ⟨0x01000010, 0x0FE00010, false⟩
  | .teqImm _ _ _ _ _ _ => ⟨0x03200000, 0x0FE00000, false⟩
  | .teqShiftImm _ _ _ _ _ _ _ => ⟨0x01200000, 0x0FE00010, false⟩
  | .teqShiftReg _ _ _ _ _ _ _ _ => ⟨0x01200010, 0x0FE00010, false⟩
  | .cmpImm _ _ _ _ _ _ => ⟨0x03400000, 0x0FE00000, false⟩
  | .cmpShiftImm _ _ _ _ _ _ _ => ⟨0x01400000, 0x0FE00010, false⟩
  | .cmpShiftReg _ _ _ _ _ _ _ _ => ⟨0x01400010, 0x0FE00010, false⟩
  | .cmnImm _ _ _ _ _ _ => ⟨0x03600000, 0x0FE00000, false⟩
  | .cmnShiftImm _ _ _ _ _ _ _ => ⟨0x01600000, 0x0FE00010, false⟩
  | .cmnShiftReg _ _ _ _ _ _ _ _ => ⟨0x01600010, 0x0FE00010, false⟩
  | .orrImm _ _ _ _ _ _ => ⟨0x03800000, 0x0FE00000, false⟩
  | .orrShiftImm _ _ _ _ _ _ _ => ⟨0x01800000, 0x0FE00010, false⟩
  | .orrShiftReg _ _ _ _ _ _ _ _ => ⟨0x01800010, 0x0FE00010, false⟩
  | .movImm _ _ _ _ _ _ => ⟨0x03A00000, 0x0FE00000, false⟩
  | .movShiftImm _ _ _ _ _ _ _ => ⟨0x01A00000, 0x0FE00010, false⟩
  | .movShiftReg _ _ _ _ _ _ _ _ => ⟨0x01A00010, 0x0FE00010, false⟩
  | .bicImm _ _ _ _ _ _ => ⟨0x03C00000, 0x0FE00000, false⟩
  | .bicShiftImm _ _ _ _ _ _ _ => ⟨0x01C00000, 0x0FE00010, false⟩
  | .bicShiftReg _ _ _ _ _ _ _ _ => ⟨0x01C00010, 0x0FE00010, false⟩
  | .mvnImm _ _ _ _ _ _ => ⟨0x03E00000, 0x0FE00000, false⟩
  | .mvnShiftImm _ _ _ _ _ _ _ => ⟨0x01E00000, 0x0FE00010, false⟩
  | .mvnShiftReg _ _ _ _ _ _ _ _ => ⟨0x01E00010, 0x0FE00010, false⟩
  | .ldrReg _ _ _ _ _ _ _ _ _ _ => ⟨0x06100000, 0x0E100010, true⟩
  | .ldrRegBit4 _ _ _ _ _ _ _ _ _ => ⟨0x06100010, 0x0E100010, true⟩
  | .ldrImm _ _ _ _ _ _ _ _ => ⟨0x04100000, 0x0E100000, true⟩
  | .str _ _ _ _ _ _ _ _ _ => ⟨0x04000000, 0x0C100000, true⟩
  | .pld _ => ⟨0xF4000000, 0xFC000000, false⟩
  | .undecodable100 _ _ => ⟨0x08000000, 0x0E000000, false⟩
  | .undecodable110 _ _ => ⟨0x0C000000, 0x0E000000, false⟩
  | .undecodable111 _ _ => ⟨0x0E000000, 0x0E000000, false⟩

/-- The two branch rows of opcode_table.json. -/
def opcodeRowsBranch : List OpcodeRow :=
  [⟨0x0A000000, 0x0F000000, false⟩, ⟨0x0B000000, 0x0F000000, false⟩]

/-- The sixteen rows of opcode_table.json of one operand form (30_encoding.md R75). -/
def opcodeRowsImm : List OpcodeRow :=
  [⟨0x02000000, 0x0FE00000, false⟩, ⟨0x02200000, 0x0FE00000, false⟩,
   ⟨0x02400000, 0x0FE00000, false⟩, ⟨0x02600000, 0x0FE00000, false⟩,
   ⟨0x02800000, 0x0FE00000, false⟩, ⟨0x02A00000, 0x0FE00000, false⟩,
   ⟨0x02C00000, 0x0FE00000, false⟩, ⟨0x02E00000, 0x0FE00000, false⟩,
   ⟨0x03000000, 0x0FE00000, false⟩, ⟨0x03200000, 0x0FE00000, false⟩,
   ⟨0x03400000, 0x0FE00000, false⟩, ⟨0x03600000, 0x0FE00000, false⟩,
   ⟨0x03800000, 0x0FE00000, false⟩, ⟨0x03A00000, 0x0FE00000, false⟩,
   ⟨0x03C00000, 0x0FE00000, false⟩, ⟨0x03E00000, 0x0FE00000, false⟩]

/-- The sixteen rows of opcode_table.json of one operand form (30_encoding.md R76). -/
def opcodeRowsShiftImm : List OpcodeRow :=
  [⟨0x00000000, 0x0FE00010, false⟩, ⟨0x00200000, 0x0FE00010, false⟩,
   ⟨0x00400000, 0x0FE00010, false⟩, ⟨0x00600000, 0x0FE00010, false⟩,
   ⟨0x00800000, 0x0FE00010, false⟩, ⟨0x00A00000, 0x0FE00010, false⟩,
   ⟨0x00C00000, 0x0FE00010, false⟩, ⟨0x00E00000, 0x0FE00010, false⟩,
   ⟨0x01000000, 0x0FE00010, false⟩, ⟨0x01200000, 0x0FE00010, false⟩,
   ⟨0x01400000, 0x0FE00010, false⟩, ⟨0x01600000, 0x0FE00010, false⟩,
   ⟨0x01800000, 0x0FE00010, false⟩, ⟨0x01A00000, 0x0FE00010, false⟩,
   ⟨0x01C00000, 0x0FE00010, false⟩, ⟨0x01E00000, 0x0FE00010, false⟩]

/-- The sixteen rows of opcode_table.json of one operand form (30_encoding.md R77). -/
def opcodeRowsShiftReg : List OpcodeRow :=
  [⟨0x00000010, 0x0FE00010, false⟩, ⟨0x00200010, 0x0FE00010, false⟩,
   ⟨0x00400010, 0x0FE00010, false⟩, ⟨0x00600010, 0x0FE00010, false⟩,
   ⟨0x00800010, 0x0FE00010, false⟩, ⟨0x00A00010, 0x0FE00010, false⟩,
   ⟨0x00C00010, 0x0FE00010, false⟩, ⟨0x00E00010, 0x0FE00010, false⟩,
   ⟨0x01000010, 0x0FE00010, false⟩, ⟨0x01200010, 0x0FE00010, false⟩,
   ⟨0x01400010, 0x0FE00010, false⟩, ⟨0x01600010, 0x0FE00010, false⟩,
   ⟨0x01800010, 0x0FE00010, false⟩, ⟨0x01A00010, 0x0FE00010, false⟩,
   ⟨0x01C00010, 0x0FE00010, false⟩, ⟨0x01E00010, 0x0FE00010, false⟩]

/-- The transfer rows and the undecodable rows of opcode_table.json. -/
def opcodeRowsRest : List OpcodeRow :=
  [⟨0x06100000, 0x0E100010, true⟩, ⟨0x06100010, 0x0E100010, true⟩, ⟨0x04100000, 0x0E100000, true⟩,
   ⟨0x04000000, 0x0C100000, true⟩, ⟨0xF4000000, 0xFC000000, false⟩,
   ⟨0x08000000, 0x0E000000, false⟩, ⟨0x0C000000, 0x0E000000, false⟩, ⟨0x0E000000, 0x0E000000, false⟩]

/-- The opcode table (30_encoding.md R90: 2 + 48 + 5 + 3 rows). -/
def opcodeTable : List OpcodeRow :=
  opcodeRowsBranch ++ opcodeRowsImm ++ opcodeRowsShiftImm ++ opcodeRowsShiftReg ++ opcodeRowsRest

end Sys2Proof
end

