-- ==== Sys2Proof/Config.lean ====
section
/-! DEFINITION. The parameters of 00_scope.md R5 other than the code image: fixed for a machine, never changed by a
step. They are plain data, so that a claim about every state is a claim about every setting (log entry 1). -/

namespace Sys2Proof

/-- The open parameters BRANCH_OFFSET_SIGNED, RRX_IMPLEMENTED and ALU_HANDLERS of 00_scope.md R5. The list stands for
the set of its members: order and repetition mean nothing to any rule. -/
structure Config where
  /-- BRANCH_OFFSET_SIGNED (43_branch.md R202). -/
  branchOffsetSigned : Bool
  /-- RRX_IMPLEMENTED (41_barrel_shifter.md R138). -/
  rrxImplemented : Bool
  /-- ALU_HANDLERS (42_data_processing.md R160). -/
  aluHandlers : List AluOp
  deriving DecidableEq, Repr

/-- The document's version: the defaults of 00_scope.md R5 (ALU_HANDLERS = 9 and 13, TEQ and MOV). -/
def Config.default : Config where
  branchOffsetSigned := false
  rrxImplemented := false
  aluHandlers := [.teq, .mov]

/-- The ARCH setting of 00_scope.md R5: signed offsets, RRX, all sixteen operations. -/
def Config.arch : Config where
  branchOffsetSigned := true
  rrxImplemented := true
  aluHandlers := AluOp.all

/-- The word on the port code_rdata while the fetch at the given offset is not admitted: a free value, with no body, since
20_memory.md R51 defines the word only where R52 and R53 admit the access. DESIGN CHOICE (log entry 14): that it depends
on the offset alone. No step reads it. -/
opaque Config.codeRdataRefused : Word → Word

end Sys2Proof
end

