-- ==== Sys2Proof/Machine/State.lean ====
section
/-! DEFINITION. The architectural state (10_state.md: sixteen registers, four flags, one fault latch), with the code
image and the parameters of 00_scope.md R5 beside it (log entry 1), as plain data, and its reset values (R35). -/

namespace Sys2Proof.Machine

/-- The four fatal faults of 60_exceptions.md R230. A step that raises one is a NEXT state whose latch holds it
(R236, log entry 4). -/
inductive FaultKind where
  /-- raised in Decode: bits 27-25 are 100, 110 or 111 (60_exceptions.md R231) -/
  | undecodable
  /-- raised in MaybeExecute: decoded, condition passed, no handler (60_exceptions.md R232) -/
  | unimplemented
  /-- raised in Fetch: R[15] + 4 > CODE_LEN (60_exceptions.md R233) -/
  | fetchOutOfBounds
  /-- raised in Fetch: R[15] is not a multiple of 4 (60_exceptions.md R234) -/
  | misalignedFetch
  deriving DecidableEq, Repr

/-- The flags register: N (sign), Z (zero), C (carry), V (overflow), with no packed layout (10_state.md R29). -/
structure Flags where
  n : Bool
  z : Bool
  c : Bool
  v : Bool
  deriving DecidableEq, Repr

/-- The code image (20_memory.md R50): CODE_LEN bytes. `cells` lists the bytes that are not 0, by rising offset below
`len`; an unlisted offset below `len` holds 0 (log entry 3). -/
structure Memory where
  len : Nat
  cells : List Host.Cell
  deriving DecidableEq, Repr

/-- The state of the core. -/
structure State where
  /-- R[0] to R[15]; R[15] is the program counter (10_state.md R20, R25) -/
  regs : Vector Word 16
  /-- N, Z, C, V (10_state.md R29) -/
  flags : Flags
  /-- the fault latch, `none` for the spec's value None (10_state.md R31) -/
  latch : Option FaultKind
  /-- CODE_IMAGE and CODE_LEN (00_scope.md R5): no step changes them -/
  image : Memory
  /-- the other parameters (00_scope.md R5): no step changes them -/
  cfg : Config
  deriving DecidableEq, Repr

/-- Why a step stops without a next state: never. Every fault of the spec is a next state with the latch set
(60_exceptions.md R236, log entry 4), so this type has no constructor. -/
inductive Fault where
  deriving DecidableEq, Repr

/-- Why a step is refused. -/
inductive Refusal where
  /-- exec's arm for an instruction that has no meaning yet; safe. No arm answers it. -/
  | notModelled (mnemonic : String)
  /-- raised by `step` before anything else when CODE_LEN is above 2^32: such a configuration is rejected before a run
  (93_implementation_defined.md row 22, 00_scope.md R5, log entry 5); safe -/
  | codeLenAboveLimit
  deriving DecidableEq, Repr

/-- The state after construction or reset with the given parameters and code image (10_state.md R35,
70_reset_and_hazards.md R260). -/
def State.resetWith (cfg : Config) (image : Memory) : State where
  regs := Vector.replicate 16 0#32
  flags := ⟨false, false, false, false⟩
  latch := none
  image := image
  cfg := cfg

/-- The machine right after reset, with the default parameters of 00_scope.md R5 and, since the spec gives no image,
the empty one (70_reset_and_hazards.md R262, log entry 2). -/
def State.reset : State :=
  State.resetWith Config.default ⟨0, []⟩

end Sys2Proof.Machine
end

