-- ==== Sys2Proof/Machine/Flags.lean ====
section
/-! DEFINITION. Everything that reads or computes flags: the condition evaluator (40_step_and_condition.md R116), the
adder with its carry and overflow (42_data_processing.md R162), the sixteen ALU results, and the flag updates (R161,
R162, R173). -/

namespace Sys2Proof.Machine

/-- `can_execute`: the condition table of 40_step_and_condition.md R116. -/
def canExecute (c : Cond) (f : Flags) : Bool :=
  match c with
  | .eq => f.z
  | .ne => !f.z
  | .cs => f.c
  | .cc => !f.c
  | .mi => f.n
  | .pl => !f.n
  | .vs => f.v
  | .vc => !f.v
  | .hi => f.c && !f.z
  | .ls => !f.c || f.z
  | .ge => f.n == f.v
  | .lt => f.n != f.v
  | .gt => (f.n == f.v) && !f.z
  | .le => (f.n != f.v) || f.z
  | .al => true
  | .nv => false

/-- How an operation takes its C and V flags: a logical one from the shifter (42_data_processing.md R161), an
arithmetic one from the adder (R162). -/
inductive AluKind where
  | logical
  | arithmetic (carry overflow : Bool)
  deriving DecidableEq, Repr

/-- The result of an ALU operation and the kind of its flag update. -/
structure AluOut where
  value : Word
  kind : AluKind
  deriving DecidableEq, Repr

/-- `AddWithCarry(x, y, cin)` of 42_data_processing.md R162: the exact sum, narrowed, with the carry and the two's
complement overflow as comparisons between the exact and the narrowed result. -/
def addWithCarry (x y : Word) (cin : Bool) : AluOut :=
  let u := x.toNat + y.toNat + cin.toNat
  let r := BitVec.ofNat 32 u
  ⟨r, .arithmetic (decide (2 ^ 32 ≤ u)) (decide (x.toInt + y.toInt + cin.toNat ≠ r.toInt))⟩

/-- The sixteen operations on the first operand `a`, operand 2 `b` and the carry flag `cin` at the start of the step
(42_data_processing.md R164 to R179, R181). -/
def aluCompute (k : AluOp) (a b : Word) (cin : Bool) : AluOut :=
  match k with
  | .and => ⟨a &&& b, .logical⟩
  | .eor => ⟨a ^^^ b, .logical⟩
  | .sub => addWithCarry a (~~~b) true
  | .rsb => addWithCarry b (~~~a) true
  | .add => addWithCarry a b false
  | .adc => addWithCarry a b cin
  | .sbc => addWithCarry a (~~~b) cin
  | .rsc => addWithCarry b (~~~a) cin
  | .tst => ⟨a &&& b, .logical⟩
  | .teq => ⟨a ^^^ b, .logical⟩
  | .cmp => addWithCarry a (~~~b) true
  | .cmn => addWithCarry a b false
  | .orr => ⟨a ||| b, .logical⟩
  | .mov => ⟨b, .logical⟩
  | .bic => ⟨a &&& ~~~b, .logical⟩
  | .mvn => ⟨~~~b, .logical⟩

/-- The operation writes Rd: all but TST, TEQ, CMP and CMN (42_data_processing.md R163). -/
def writesRd (k : AluOp) : Bool :=
  match k with
  | .tst | .teq | .cmp | .cmn => false
  | .and | .eor | .sub | .rsb | .add | .adc | .sbc | .rsc | .orr | .mov | .bic | .mvn => true

/-- The operation writes N and Z even with S = 0: TEQ alone (42_data_processing.md R173). -/
def writesNzAlways (k : AluOp) : Bool :=
  match k with
  | .teq => true
  | .tst | .cmp | .cmn | .and | .eor | .sub | .rsb | .add | .adc | .sbc | .rsc | .orr | .mov | .bic | .mvn => false

/-- N takes bit 31 of the result and Z whether it is 0 (42_data_processing.md R161, R162). -/
def withNz (f : Flags) (r : Word) : Flags :=
  { f with n := r.getLsbD 31, z := r == 0#32 }

/-- The flags after a data-processing instruction with result `out`, shifter carry-out `sc` and update flag `sf`
(42_data_processing.md R161, R162, R173). -/
def flagsAfter (k : AluOp) (sf : Bool) (out : AluOut) (sc : Bool) (f : Flags) : Flags :=
  if sf then
    match out.kind with
    | .logical => { withNz f out.value with c := sc }
    | .arithmetic carry overflow => { withNz f out.value with c := carry, v := overflow }
  else if writesNzAlways k then withNz f out.value
  else f

end Sys2Proof.Machine
end

