-- ==== Sys2Proof/Machine/Ops.lean ====
section
/-! DEFINITION. The named operations over the register file (10_state.md R22, R24), the code image (20_memory.md R50
to R53) and the step's phases: fetch, raising a fault (60_exceptions.md R236), and the condition gate with its Advance
(40_step_and_condition.md R113, R114). The hardware has no return from a fault (60_exceptions.md R238). -/

namespace Sys2Proof.Machine

/-- `register_at`: the raw read `R[i]` (10_state.md R22). -/
def State.get (s : State) (i : Reg) : Word := s.regs[i.val]

/-- `set_register_at`: `R[i] <- v` (10_state.md R22). -/
def State.set (s : State) (i : Reg) (v : Word) : State := { s with regs := s.regs.set i v }

/-- `program_counter`: R[15] (10_state.md R22, R25). -/
def State.pc (s : State) : Word := s.get 15

/-- `RegRead(i)`: an operand read, with the prefetch offset of 8 for register 15 (10_state.md R24). -/
def State.regRead (s : State) (i : Reg) : Word := if i = 15 then s.get 15 + 8#32 else s.get i

/-- `advance_program_counter(4)`: the Advance phase (10_state.md R22, 40_step_and_condition.md R114). -/
def State.advance (s : State) : State := s.set 15 (s.get 15 + 4#32)

/-- The flags replaced, all else kept. -/
def State.setFlags (s : State) (f : Flags) : State := { s with flags := f }

/-- Raising a fault: nothing is written but the latch, and no Advance follows (60_exceptions.md R236). -/
def State.raise (s : State) (f : FaultKind) : State := { s with latch := some f }

/-- The byte of the image at an offset below its length (20_memory.md R50); an unlisted offset holds 0.
The function is total: at or above the length, where the spec has no byte and no admitted fetch reads, it also gives 0,
DESIGN CHOICE (log entry 14). -/
def Memory.read (m : Memory) (a : Nat) : Byte :=
  match m.cells.find? (fun c => c.1 == a) with
  | some c => c.2
  | none => 0#8

/-- Cells with the byte at `a` replaced, in canonical form: rising offsets, no byte 0 listed. -/
def writeCells (cells : List Host.Cell) (a : Nat) (b : Byte) : List Host.Cell :=
  match cells with
  | [] => if b = 0#8 then [] else [(a, b)]
  | c :: rest =>
    if a < c.1 then (if b = 0#8 then c :: rest else (a, b) :: c :: rest)
    else if a = c.1 then (if b = 0#8 then rest else (a, b) :: rest)
    else c :: writeCells rest a b

/-- One byte of the image supplied anew: what building or loading an image does, and no instruction
(20_memory.md R59). An offset outside the image is not written. -/
def Memory.write (m : Memory) (a : Nat) (b : Byte) : Memory :=
  if a < m.len then { m with cells := writeCells m.cells a b } else m

/-- The image made at least `n` bytes long, the new bytes 0. -/
def Memory.extend (m : Memory) (n : Nat) : Memory := { m with len := max m.len n }

/-- Consecutive bytes of the image supplied anew from offset `a` on. -/
def Memory.writeBytes (m : Memory) (a : Nat) : List Byte → Memory
  | [] => m
  | b :: rest => (m.write a b).writeBytes (a + 1) rest

/-- The image of a sequence of bytes (00_scope.md R5: CODE_LEN is its length). -/
def Memory.ofBytes (bytes : List Byte) : Memory :=
  (Memory.extend ⟨0, []⟩ bytes.length).writeBytes 0 bytes

/-- The canonical form of an image: rising offsets, no byte 0 listed, every offset below the length. -/
abbrev Memory.wf (m : Memory) : Prop :=
  m.cells.Pairwise (fun x y => x.1 < y.1) ∧ ∀ c ∈ m.cells, c.2 ≠ 0#8 ∧ c.1 < m.len

/-- `CodeRead32(a)` (20_memory.md R51), which the spec defines only where R52 and R53 admit the access; the function is
total, and `fetch` is what tests the admission (DESIGN CHOICE, log entry 14). -/
def codeRead32 (m : Memory) (a : Nat) : Word :=
  wordOfBytes (m.read a) (m.read (a + 1)) (m.read (a + 2)) (m.read (a + 3))

/-- The Fetch phase (40_step_and_condition.md R110, R111): alignment is checked before the bound
(60_exceptions.md R237), and the bound on unbounded integers (20_memory.md R52). -/
def fetch (s : State) : Except FaultKind Word :=
  let x := s.pc.toNat
  if x % 4 ≠ 0 then .error .misalignedFetch
  else if s.image.len < x + 4 then .error .fetchOutOfBounds
  else .ok (codeRead32 s.image x)

/-- The configuration is one a run may start with: CODE_LEN is at most 2^32 (00_scope.md R5). -/
def codeLenOk (s : State) : Bool := decide (s.image.len ≤ 2 ^ 32)

/-- The end of a step whose handler answered `r`: a fault is raised in the state before the handler, so that nothing
the step computed is written (40_step_and_condition.md R115); otherwise Advance follows the handler's writes (R114). -/
def finish (s : State) (r : Except FaultKind State) : Host.Outcome State Fault Refusal :=
  match r with
  | .ok t => .next t.advance
  | .error f => .next (s.raise f)

/-- MaybeExecute and Advance (40_step_and_condition.md R113, R114): the handler runs only when the condition passes on
the flags at the start of the step (R118); a failed condition leaves only the Advance. -/
def conditional (c : Cond) (handler : State → Except FaultKind State) (s : State) :
    Host.Outcome State Fault Refusal :=
  if canExecute c s.flags then finish s (handler s) else .next s.advance

end Sys2Proof.Machine
end

