-- ==== Sys2Proof/Machine/Operands.lean ====
section
/-! DEFINITION. Every operand form: the barrel shifter (41_barrel_shifter.md R130 to R139, R146), operand 2 in its
three forms (R140 to R142), the transfer offset (R143) and address (44_single_data_transfer.md R211 to R213), and the
branch immediate (43_branch.md R202). -/

namespace Sys2Proof.Machine

/-- The result and the carry-out of the shifter (41_barrel_shifter.md R130). -/
structure ShiftOut where
  value : Word
  carry : Bool
  deriving DecidableEq, Repr

/-- `ror32(v, n)` of 00_scope.md R10. -/
def ror32 (v : Word) (n : Nat) : Word :=
  let k := n % 32
  if k = 0 then v else (v >>> k) ||| (v <<< (32 - k))

/-- Bit 31 of the value in every bit (41_barrel_shifter.md R137). -/
def signFill (v : Word) : Word := if v.getLsbD 31 then 0xFFFFFFFF#32 else 0#32

/-- LSL by `n` (41_barrel_shifter.md R131, R135, R139). -/
def shiftLsl (n : Nat) (v : Word) (cin : Bool) : ShiftOut :=
  if n = 0 then ⟨v, cin⟩
  else if n < 32 then ⟨v <<< n, v.getLsbD (32 - n)⟩
  else if n = 32 then ⟨0#32, v.getLsbD 0⟩
  else ⟨0#32, false⟩

/-- LSR by `n`; an amount of 0 is LSR by 32 (41_barrel_shifter.md R132, R136, R139). -/
def shiftLsr (n : Nat) (v : Word) : ShiftOut :=
  if n = 0 then ⟨0#32, v.getLsbD 31⟩
  else if n < 32 then ⟨v >>> n, v.getLsbD (n - 1)⟩
  else if n = 32 then ⟨0#32, v.getLsbD 31⟩
  else ⟨0#32, false⟩

/-- ASR by `n`; an amount of 0 is ASR by 32 (41_barrel_shifter.md R133, R137, R139). -/
def shiftAsr (n : Nat) (v : Word) : ShiftOut :=
  if n = 0 then ⟨signFill v, v.getLsbD 31⟩
  else if n < 32 then ⟨v.sshiftRight n, v.getLsbD (n - 1)⟩
  else ⟨signFill v, v.getLsbD 31⟩

/-- ROR by `n`; an amount of 0 is the rotate right extended through the carry (41_barrel_shifter.md R134, R138, R139).
Where RRX is not implemented the caller raises before it uses this value (`rorZeroMissing`). -/
def shiftRor (n : Nat) (v : Word) (cin : Bool) : ShiftOut :=
  if n = 0 then ⟨(if cin then 0x80000000#32 else 0#32) + (v >>> 1), v.getLsbD 0⟩
  else if n % 32 = 0 then ⟨v, v.getLsbD 31⟩
  else ⟨ror32 v n, v.getLsbD (n % 32 - 1)⟩

/-- `Shift(type, amount, value, c_in)` of 41_barrel_shifter.md R130, in all the cases of R146. -/
def shift (ty : ShiftType) (n : Nat) (v : Word) (cin : Bool) : ShiftOut :=
  match ty with
  | .lsl => shiftLsl n v cin
  | .lsr => shiftLsr n v
  | .asr => shiftAsr n v
  | .ror => shiftRor n v cin

/-- ROR with amount 0 on a core without RRX: the shifter produces no result (41_barrel_shifter.md R138). -/
def rorZeroMissing (cfg : Config) (ty : ShiftType) (n : Nat) : Bool :=
  (ty == .ror) && (n == 0) && !cfg.rrxImplemented

/-- A shifted register operand by a known amount, on the carry at the start of the step (41_barrel_shifter.md R144),
or the Unimplemented of R138. -/
def shiftedReg (s : State) (ty : ShiftType) (n : Nat) (rm : Reg) : Except FaultKind ShiftOut :=
  if rorZeroMissing s.cfg ty n then .error .unimplemented
  else .ok (shift ty n (s.regRead rm) s.flags.c)

/-- Operand 2, immediate form: rotate 0 passes the carry (41_barrel_shifter.md R140). -/
def operandImm (s : State) (rotate : BitVec 4) (imm8 : BitVec 8) : ShiftOut :=
  let v := ror32 (imm8.setWidth 32) (2 * rotate.toNat)
  ⟨v, if rotate = 0#4 then s.flags.c else v.getLsbD 31⟩

/-- Operand 2, register shifted by immediate (41_barrel_shifter.md R141). -/
def operandShiftImm (s : State) (amount : BitVec 5) (ty : ShiftType) (rm : Reg) : Except FaultKind ShiftOut :=
  shiftedReg s ty amount.toNat rm

/-- The amount of a shift by register: the low byte of Rs (41_barrel_shifter.md R142). -/
def shiftAmount (s : State) (rs : Reg) : Nat := (s.regRead rs).toNat % 256

/-- Operand 2, register shifted by register (41_barrel_shifter.md R142). -/
def operandShiftReg (s : State) (rs : Reg) (ty : ShiftType) (rm : Reg) : Except FaultKind ShiftOut :=
  shiftedReg s ty (shiftAmount s rs) rm

/-- Operand 2 of a data-processing instruction in any form (42_data_processing.md R160); bit 7 is ignored
(30_encoding.md R84). -/
def operand2 (s : State) (o : Operand2) : Except FaultKind ShiftOut :=
  match o with
  | .imm rotate imm8 => .ok (operandImm s rotate imm8)
  | .shiftImm amount ty rm => operandShiftImm s amount ty rm
  | .shiftReg rs _ ty rm => operandShiftReg s rs ty rm

/-- The effective address, added for U = 1 and subtracted for U = 0, with wrap (44_single_data_transfer.md R213). -/
def effectiveAddress (u : Bool) (base off : Word) : Word := if u then base + off else base - off

/-- The branch immediate, zero- or sign-extended by the parameter, times 4 (43_branch.md R202). -/
def branchImm (cfg : Config) (offset24 : BitVec 24) : Word :=
  (if cfg.branchOffsetSigned then offset24.signExtend 32 else offset24.setWidth 32) * 4#32

/-- The value a taken branch writes to register 15 before the Advance (43_branch.md R200). -/
def branchTarget (s : State) (offset24 : BitVec 24) : Word := s.pc + 8#32 + branchImm s.cfg offset24

end Sys2Proof.Machine
end

