-- ==== Sys2Proof/Machine/DataProcessing.lean ====
section
/-! DEFINITION. The execution of a data-processing instruction, shared by the sixteen operations and the three operand
forms (42_data_processing.md R160). -/

namespace Sys2Proof.Machine

/-- The commit of a data-processing instruction: flags, then Rd unless the operation writes none
(42_data_processing.md R160, R163). -/
def commitAlu (k : AluOp) (sf : Bool) (rd : Reg) (out : AluOut) (sc : Bool) (s : State) : State :=
  let t := s.setFlags (flagsAfter k sf out sc s.flags)
  if writesRd k then t.set rd out.value else t

/-- The handler of a data-processing instruction, in the order of 42_data_processing.md R160: operands, the two fault
checks, the result, the commit. -/
def aluHandler (k : AluOp) (sf : Bool) (rn rd : Reg) (o : Operand2) (s : State) : Except FaultKind State :=
  match operand2 s o with
  | .error f => .error f
  | .ok b =>
    if k ∈ s.cfg.aluHandlers then
      .ok (commitAlu k sf rd (aluCompute k (s.regRead rn) b.value s.flags.c) b.carry s)
    else .error .unimplemented

/-- A data-processing instruction under its condition (40_step_and_condition.md R113). -/
def dataProcessing (k : AluOp) (c : Cond) (sf : Bool) (rn rd : Reg) (o : Operand2) (s : State) :
    Host.Outcome State Fault Refusal :=
  conditional c (aluHandler k sf rn rd o) s

end Sys2Proof.Machine
end

