-- ==== Sys2Proof/Machine/Arithmetic.lean ====
section
/-! DEFINITION. The meanings of SUB, RSB, ADD, ADC, SBC, RSC, CMP and CMN in their three operand forms
(42_data_processing.md R162 and R166 to R175). -/

namespace Sys2Proof.Machine

/-- SUB with an immediate operand (42_data_processing.md R166, 41_barrel_shifter.md R140). -/
def execSubImm (c : Cond) (sf : Bool) (rn rd : Reg) (rotate : BitVec 4) (imm8 : BitVec 8) (s : State) :
    Host.Outcome State Fault Refusal :=
  dataProcessing .sub c sf rn rd (.imm rotate imm8) s

/-- SUB with a register shifted by an immediate (42_data_processing.md R166, 41_barrel_shifter.md R141). -/
def execSubShiftImm (c : Cond) (sf : Bool) (rn rd : Reg) (amount : BitVec 5) (ty : ShiftType) (rm : Reg)
    (s : State) : Host.Outcome State Fault Refusal :=
  dataProcessing .sub c sf rn rd (.shiftImm amount ty rm) s

/-- SUB with a register shifted by a register (42_data_processing.md R166, 41_barrel_shifter.md R142). -/
def execSubShiftReg (c : Cond) (sf : Bool) (rn rd rs : Reg) (bit7 : Bool) (ty : ShiftType) (rm : Reg)
    (s : State) : Host.Outcome State Fault Refusal :=
  dataProcessing .sub c sf rn rd (.shiftReg rs bit7 ty rm) s

/-- RSB with an immediate operand (42_data_processing.md R167, 41_barrel_shifter.md R140). -/
def execRsbImm (c : Cond) (sf : Bool) (rn rd : Reg) (rotate : BitVec 4) (imm8 : BitVec 8) (s : State) :
    Host.Outcome State Fault Refusal :=
  dataProcessing .rsb c sf rn rd (.imm rotate imm8) s

/-- RSB with a register shifted by an immediate (42_data_processing.md R167, 41_barrel_shifter.md R141). -/
def execRsbShiftImm (c : Cond) (sf : Bool) (rn rd : Reg) (amount : BitVec 5) (ty : ShiftType) (rm : Reg)
    (s : State) : Host.Outcome State Fault Refusal :=
  dataProcessing .rsb c sf rn rd (.shiftImm amount ty rm) s

/-- RSB with a register shifted by a register (42_data_processing.md R167, 41_barrel_shifter.md R142). -/
def execRsbShiftReg (c : Cond) (sf : Bool) (rn rd rs : Reg) (bit7 : Bool) (ty : ShiftType) (rm : Reg)
    (s : State) : Host.Outcome State Fault Refusal :=
  dataProcessing .rsb c sf rn rd (.shiftReg rs bit7 ty rm) s

/-- ADD with an immediate operand (42_data_processing.md R168, 41_barrel_shifter.md R140). -/
def execAddImm (c : Cond) (sf : Bool) (rn rd : Reg) (rotate : BitVec 4) (imm8 : BitVec 8) (s : State) :
    Host.Outcome State Fault Refusal :=
  dataProcessing .add c sf rn rd (.imm rotate imm8) s

/-- ADD with a register shifted by an immediate (42_data_processing.md R168, 41_barrel_shifter.md R141). -/
def execAddShiftImm (c : Cond) (sf : Bool) (rn rd : Reg) (amount : BitVec 5) (ty : ShiftType) (rm : Reg)
    (s : State) : Host.Outcome State Fault Refusal :=
  dataProcessing .add c sf rn rd (.shiftImm amount ty rm) s

/-- ADD with a register shifted by a register (42_data_processing.md R168, 41_barrel_shifter.md R142). -/
def execAddShiftReg (c : Cond) (sf : Bool) (rn rd rs : Reg) (bit7 : Bool) (ty : ShiftType) (rm : Reg)
    (s : State) : Host.Outcome State Fault Refusal :=
  dataProcessing .add c sf rn rd (.shiftReg rs bit7 ty rm) s

/-- ADC with an immediate operand (42_data_processing.md R169, 41_barrel_shifter.md R140). -/
def execAdcImm (c : Cond) (sf : Bool) (rn rd : Reg) (rotate : BitVec 4) (imm8 : BitVec 8) (s : State) :
    Host.Outcome State Fault Refusal :=
  dataProcessing .adc c sf rn rd (.imm rotate imm8) s

/-- ADC with a register shifted by an immediate (42_data_processing.md R169, 41_barrel_shifter.md R141). -/
def execAdcShiftImm (c : Cond) (sf : Bool) (rn rd : Reg) (amount : BitVec 5) (ty : ShiftType) (rm : Reg)
    (s : State) : Host.Outcome State Fault Refusal :=
  dataProcessing .adc c sf rn rd (.shiftImm amount ty rm) s

/-- ADC with a register shifted by a register (42_data_processing.md R169, 41_barrel_shifter.md R142). -/
def execAdcShiftReg (c : Cond) (sf : Bool) (rn rd rs : Reg) (bit7 : Bool) (ty : ShiftType) (rm : Reg)
    (s : State) : Host.Outcome State Fault Refusal :=
  dataProcessing .adc c sf rn rd (.shiftReg rs bit7 ty rm) s

/-- SBC with an immediate operand (42_data_processing.md R170, 41_barrel_shifter.md R140). -/
def execSbcImm (c : Cond) (sf : Bool) (rn rd : Reg) (rotate : BitVec 4) (imm8 : BitVec 8) (s : State) :
    Host.Outcome State Fault Refusal :=
  dataProcessing .sbc c sf rn rd (.imm rotate imm8) s

/-- SBC with a register shifted by an immediate (42_data_processing.md R170, 41_barrel_shifter.md R141). -/
def execSbcShiftImm (c : Cond) (sf : Bool) (rn rd : Reg) (amount : BitVec 5) (ty : ShiftType) (rm : Reg)
    (s : State) : Host.Outcome State Fault Refusal :=
  dataProcessing .sbc c sf rn rd (.shiftImm amount ty rm) s

/-- SBC with a register shifted by a register (42_data_processing.md R170, 41_barrel_shifter.md R142). -/
def execSbcShiftReg (c : Cond) (sf : Bool) (rn rd rs : Reg) (bit7 : Bool) (ty : ShiftType) (rm : Reg)
    (s : State) : Host.Outcome State Fault Refusal :=
  dataProcessing .sbc c sf rn rd (.shiftReg rs bit7 ty rm) s

/-- RSC with an immediate operand (42_data_processing.md R171, 41_barrel_shifter.md R140). -/
def execRscImm (c : Cond) (sf : Bool) (rn rd : Reg) (rotate : BitVec 4) (imm8 : BitVec 8) (s : State) :
    Host.Outcome State Fault Refusal :=
  dataProcessing .rsc c sf rn rd (.imm rotate imm8) s

/-- RSC with a register shifted by an immediate (42_data_processing.md R171, 41_barrel_shifter.md R141). -/
def execRscShiftImm (c : Cond) (sf : Bool) (rn rd : Reg) (amount : BitVec 5) (ty : ShiftType) (rm : Reg)
    (s : State) : Host.Outcome State Fault Refusal :=
  dataProcessing .rsc c sf rn rd (.shiftImm amount ty rm) s

/-- RSC with a register shifted by a register (42_data_processing.md R171, 41_barrel_shifter.md R142). -/
def execRscShiftReg (c : Cond) (sf : Bool) (rn rd rs : Reg) (bit7 : Bool) (ty : ShiftType) (rm : Reg)
    (s : State) : Host.Outcome State Fault Refusal :=
  dataProcessing .rsc c sf rn rd (.shiftReg rs bit7 ty rm) s

/-- CMP with an immediate operand (42_data_processing.md R174, 41_barrel_shifter.md R140). -/
def execCmpImm (c : Cond) (sf : Bool) (rn rd : Reg) (rotate : BitVec 4) (imm8 : BitVec 8) (s : State) :
    Host.Outcome State Fault Refusal :=
  dataProcessing .cmp c sf rn rd (.imm rotate imm8) s

/-- CMP with a register shifted by an immediate (42_data_processing.md R174, 41_barrel_shifter.md R141). -/
def execCmpShiftImm (c : Cond) (sf : Bool) (rn rd : Reg) (amount : BitVec 5) (ty : ShiftType) (rm : Reg)
    (s : State) : Host.Outcome State Fault Refusal :=
  dataProcessing .cmp c sf rn rd (.shiftImm amount ty rm) s

/-- CMP with a register shifted by a register (42_data_processing.md R174, 41_barrel_shifter.md R142). -/
def execCmpShiftReg (c : Cond) (sf : Bool) (rn rd rs : Reg) (bit7 : Bool) (ty : ShiftType) (rm : Reg)
    (s : State) : Host.Outcome State Fault Refusal :=
  dataProcessing .cmp c sf rn rd (.shiftReg rs bit7 ty rm) s

/-- CMN with an immediate operand (42_data_processing.md R175, 41_barrel_shifter.md R140). -/
def execCmnImm (c : Cond) (sf : Bool) (rn rd : Reg) (rotate : BitVec 4) (imm8 : BitVec 8) (s : State) :
    Host.Outcome State Fault Refusal :=
  dataProcessing .cmn c sf rn rd (.imm rotate imm8) s

/-- CMN with a register shifted by an immediate (42_data_processing.md R175, 41_barrel_shifter.md R141). -/
def execCmnShiftImm (c : Cond) (sf : Bool) (rn rd : Reg) (amount : BitVec 5) (ty : ShiftType) (rm : Reg)
    (s : State) : Host.Outcome State Fault Refusal :=
  dataProcessing .cmn c sf rn rd (.shiftImm amount ty rm) s

/-- CMN with a register shifted by a register (42_data_processing.md R175, 41_barrel_shifter.md R142). -/
def execCmnShiftReg (c : Cond) (sf : Bool) (rn rd rs : Reg) (bit7 : Bool) (ty : ShiftType) (rm : Reg)
    (s : State) : Host.Outcome State Fault Refusal :=
  dataProcessing .cmn c sf rn rd (.shiftReg rs bit7 ty rm) s

end Sys2Proof.Machine
end

