-- ==== Sys2Proof/Machine/Branch.lean ====
section
/-! DEFINITION. The meanings of Branch and BranchWithLink (43_branch.md R200, R201). -/

namespace Sys2Proof.Machine

/-- The handler of Branch (43_branch.md R200). -/
def branchHandler (offset24 : BitVec 24) (s : State) : Except FaultKind State :=
  .ok (s.set 15 (branchTarget s offset24))

/-- The handler of BranchWithLink: the link first, then the jump, both from the R[15] at the start of the step
(43_branch.md R201). -/
def branchLinkHandler (offset24 : BitVec 24) (s : State) : Except FaultKind State :=
  .ok ((s.set 14 (s.pc + 4#32)).set 15 (branchTarget s offset24))

/-- B (43_branch.md R200). -/
def execB (c : Cond) (offset24 : BitVec 24) (s : State) : Host.Outcome State Fault Refusal :=
  conditional c (branchHandler offset24) s

/-- BL (43_branch.md R201). -/
def execBl (c : Cond) (offset24 : BitVec 24) (s : State) : Host.Outcome State Fault Refusal :=
  conditional c (branchLinkHandler offset24) s

end Sys2Proof.Machine
end

