-- ==== Sys2Proof/Machine/Logical.lean ====
section
/-! DEFINITION. The meanings of AND, EOR, TST, TEQ, ORR, MOV, BIC and MVN in their three operand forms
(42_data_processing.md R161 and R164 to R179). -/

namespace Sys2Proof.Machine

/-- AND with an immediate operand (42_data_processing.md R164, 41_barrel_shifter.md R140). -/
def execAndImm (c : Cond) (sf : Bool) (rn rd : Reg) (rotate : BitVec 4) (imm8 : BitVec 8) (s : State) :
    Host.Outcome State Fault Refusal :=
  dataProcessing .and c sf rn rd (.imm rotate imm8) s

/-- AND with a register shifted by an immediate (42_data_processing.md R164, 41_barrel_shifter.md R141). -/
def execAndShiftImm (c : Cond) (sf : Bool) (rn rd : Reg) (amount : BitVec 5) (ty : ShiftType) (rm : Reg)
    (s : State) : Host.Outcome State Fault Refusal :=
  dataProcessing .and c sf rn rd (.shiftImm amount ty rm) s

/-- AND with a register shifted by a register (42_data_processing.md R164, 41_barrel_shifter.md R142). -/
def execAndShiftReg (c : Cond) (sf : Bool) (rn rd rs : Reg) (bit7 : Bool) (ty : ShiftType) (rm : Reg)
    (s : State) : Host.Outcome State Fault Refusal :=
  dataProcessing .and c sf rn rd (.shiftReg rs bit7 ty rm) s

/-- EOR with an immediate operand (42_data_processing.md R165, 41_barrel_shifter.md R140). -/
def execEorImm (c : Cond) (sf : Bool) (rn rd : Reg) (rotate : BitVec 4) (imm8 : BitVec 8) (s : State) :
    Host.Outcome State Fault Refusal :=
  dataProcessing .eor c sf rn rd (.imm rotate imm8) s

/-- EOR with a register shifted by an immediate (42_data_processing.md R165, 41_barrel_shifter.md R141). -/
def execEorShiftImm (c : Cond) (sf : Bool) (rn rd : Reg) (amount : BitVec 5) (ty : ShiftType) (rm : Reg)
    (s : State) : Host.Outcome State Fault Refusal :=
  dataProcessing .eor c sf rn rd (.shiftImm amount ty rm) s

/-- EOR with a register shifted by a register (42_data_processing.md R165, 41_barrel_shifter.md R142). -/
def execEorShiftReg (c : Cond) (sf : Bool) (rn rd rs : Reg) (bit7 : Bool) (ty : ShiftType) (rm : Reg)
    (s : State) : Host.Outcome State Fault Refusal :=
  dataProcessing .eor c sf rn rd (.shiftReg rs bit7 ty rm) s

/-- TST with an immediate operand (42_data_processing.md R172, 41_barrel_shifter.md R140). -/
def execTstImm (c : Cond) (sf : Bool) (rn rd : Reg) (rotate : BitVec 4) (imm8 : BitVec 8) (s : State) :
    Host.Outcome State Fault Refusal :=
  dataProcessing .tst c sf rn rd (.imm rotate imm8) s

/-- TST with a register shifted by an immediate (42_data_processing.md R172, 41_barrel_shifter.md R141). -/
def execTstShiftImm (c : Cond) (sf : Bool) (rn rd : Reg) (amount : BitVec 5) (ty : ShiftType) (rm : Reg)
    (s : State) : Host.Outcome State Fault Refusal :=
  dataProcessing .tst c sf rn rd (.shiftImm amount ty rm) s

/-- TST with a register shifted by a register (42_data_processing.md R172, 41_barrel_shifter.md R142). -/
def execTstShiftReg (c : Cond) (sf : Bool) (rn rd rs : Reg) (bit7 : Bool) (ty : ShiftType) (rm : Reg)
    (s : State) : Host.Outcome State Fault Refusal :=
  dataProcessing .tst c sf rn rd (.shiftReg rs bit7 ty rm) s

/-- TEQ with an immediate operand (42_data_processing.md R173, 41_barrel_shifter.md R140). -/
def execTeqImm (c : Cond) (sf : Bool) (rn rd : Reg) (rotate : BitVec 4) (imm8 : BitVec 8) (s : State) :
    Host.Outcome State Fault Refusal :=
  dataProcessing .teq c sf rn rd (.imm rotate imm8) s

/-- TEQ with a register shifted by an immediate (42_data_processing.md R173, 41_barrel_shifter.md R141). -/
def execTeqShiftImm (c : Cond) (sf : Bool) (rn rd : Reg) (amount : BitVec 5) (ty : ShiftType) (rm : Reg)
    (s : State) : Host.Outcome State Fault Refusal :=
  dataProcessing .teq c sf rn rd (.shiftImm amount ty rm) s

/-- TEQ with a register shifted by a register (42_data_processing.md R173, 41_barrel_shifter.md R142). -/
def execTeqShiftReg (c : Cond) (sf : Bool) (rn rd rs : Reg) (bit7 : Bool) (ty : ShiftType) (rm : Reg)
    (s : State) : Host.Outcome State Fault Refusal :=
  dataProcessing .teq c sf rn rd (.shiftReg rs bit7 ty rm) s

/-- ORR with an immediate operand (42_data_processing.md R176, 41_barrel_shifter.md R140). -/
def execOrrImm (c : Cond) (sf : Bool) (rn rd : Reg) (rotate : BitVec 4) (imm8 : BitVec 8) (s : State) :
    Host.Outcome State Fault Refusal :=
  dataProcessing .orr c sf rn rd (.imm rotate imm8) s

/-- ORR with a register shifted by an immediate (42_data_processing.md R176, 41_barrel_shifter.md R141). -/
def execOrrShiftImm (c : Cond) (sf : Bool) (rn rd : Reg) (amount : BitVec 5) (ty : ShiftType) (rm : Reg)
    (s : State) : Host.Outcome State Fault Refusal :=
  dataProcessing .orr c sf rn rd (.shiftImm amount ty rm) s

/-- ORR with a register shifted by a register (42_data_processing.md R176, 41_barrel_shifter.md R142). -/
def execOrrShiftReg (c : Cond) (sf : Bool) (rn rd rs : Reg) (bit7 : Bool) (ty : ShiftType) (rm : Reg)
    (s : State) : Host.Outcome State Fault Refusal :=
  dataProcessing .orr c sf rn rd (.shiftReg rs bit7 ty rm) s

/-- MOV with an immediate operand (42_data_processing.md R177, 41_barrel_shifter.md R140). -/
def execMovImm (c : Cond) (sf : Bool) (rn rd : Reg) (rotate : BitVec 4) (imm8 : BitVec 8) (s : State) :
    Host.Outcome State Fault Refusal :=
  dataProcessing .mov c sf rn rd (.imm rotate imm8) s

/-- MOV with a register shifted by an immediate (42_data_processing.md R177, 41_barrel_shifter.md R141). -/
def execMovShiftImm (c : Cond) (sf : Bool) (rn rd : Reg) (amount : BitVec 5) (ty : ShiftType) (rm : Reg)
    (s : State) : Host.Outcome State Fault Refusal :=
  dataProcessing .mov c sf rn rd (.shiftImm amount ty rm) s

/-- MOV with a register shifted by a register (42_data_processing.md R177, 41_barrel_shifter.md R142). -/
def execMovShiftReg (c : Cond) (sf : Bool) (rn rd rs : Reg) (bit7 : Bool) (ty : ShiftType) (rm : Reg)
    (s : State) : Host.Outcome State Fault Refusal :=
  dataProcessing .mov c sf rn rd (.shiftReg rs bit7 ty rm) s

/-- BIC with an immediate operand (42_data_processing.md R178, 41_barrel_shifter.md R140). -/
def execBicImm (c : Cond) (sf : Bool) (rn rd : Reg) (rotate : BitVec 4) (imm8 : BitVec 8) (s : State) :
    Host.Outcome State Fault Refusal :=
  dataProcessing .bic c sf rn rd (.imm rotate imm8) s

/-- BIC with a register shifted by an immediate (42_data_processing.md R178, 41_barrel_shifter.md R141). -/
def execBicShiftImm (c : Cond) (sf : Bool) (rn rd : Reg) (amount : BitVec 5) (ty : ShiftType) (rm : Reg)
    (s : State) : Host.Outcome State Fault Refusal :=
  dataProcessing .bic c sf rn rd (.shiftImm amount ty rm) s

/-- BIC with a register shifted by a register (42_data_processing.md R178, 41_barrel_shifter.md R142). -/
def execBicShiftReg (c : Cond) (sf : Bool) (rn rd rs : Reg) (bit7 : Bool) (ty : ShiftType) (rm : Reg)
    (s : State) : Host.Outcome State Fault Refusal :=
  dataProcessing .bic c sf rn rd (.shiftReg rs bit7 ty rm) s

/-- MVN with an immediate operand (42_data_processing.md R179, 41_barrel_shifter.md R140). -/
def execMvnImm (c : Cond) (sf : Bool) (rn rd : Reg) (rotate : BitVec 4) (imm8 : BitVec 8) (s : State) :
    Host.Outcome State Fault Refusal :=
  dataProcessing .mvn c sf rn rd (.imm rotate imm8) s

/-- MVN with a register shifted by an immediate (42_data_processing.md R179, 41_barrel_shifter.md R141). -/
def execMvnShiftImm (c : Cond) (sf : Bool) (rn rd : Reg) (amount : BitVec 5) (ty : ShiftType) (rm : Reg)
    (s : State) : Host.Outcome State Fault Refusal :=
  dataProcessing .mvn c sf rn rd (.shiftImm amount ty rm) s

/-- MVN with a register shifted by a register (42_data_processing.md R179, 41_barrel_shifter.md R142). -/
def execMvnShiftReg (c : Cond) (sf : Bool) (rn rd rs : Reg) (bit7 : Bool) (ty : ShiftType) (rm : Reg)
    (s : State) : Host.Outcome State Fault Refusal :=
  dataProcessing .mvn c sf rn rd (.shiftReg rs bit7 ty rm) s

end Sys2Proof.Machine
end

