-- ==== Sys2Proof/Machine/Transfer.lean ====
section
/-! DEFINITION. The meanings of the single data transfers (44_single_data_transfer.md R214 to R218). No form touches
memory (R220) or writes its base register (R219); bits 24, 22 and 21 are not read. -/

namespace Sys2Proof.Machine

/-- The handler of a load with register offset: Rd takes the effective address itself
(44_single_data_transfer.md R210 to R214). -/
def loadHandler (u : Bool) (rn rd : Reg) (amount : BitVec 5) (ty : ShiftType) (rm : Reg) (s : State) :
    Except FaultKind State :=
  match shiftedReg s ty amount.toNat rm with
  | .error f => .error f
  | .ok off => .ok (s.set rd (effectiveAddress u (s.regRead rn) off.value))

/-- A form that decodes and has no handler (30_encoding.md R83, 60_exceptions.md R232). -/
def noHandler (_s : State) : Except FaultKind State := .error .unimplemented

/-- LDR with register offset (44_single_data_transfer.md R214). -/
def execLdrReg (c : Cond) (_b24 u _b22 _b21 : Bool) (rn rd : Reg) (amount : BitVec 5) (ty : ShiftType) (rm : Reg)
    (s : State) : Host.Outcome State Fault Refusal :=
  conditional c (loadHandler u rn rd amount ty rm) s

/-- LDR with I = 1 and bit 4 = 1: Unimplemented when executed (44_single_data_transfer.md R216). -/
def execLdrRegBit4 (c : Cond) (_b24 _u _b22 _b21 : Bool) (_rn _rd : Reg) (_offHi : BitVec 7) (_offLo : BitVec 4)
    (s : State) : Host.Outcome State Fault Refusal :=
  conditional c noHandler s

/-- LDR with immediate offset: Unimplemented when executed (44_single_data_transfer.md R215). -/
def execLdrImm (c : Cond) (_b24 _u _b22 _b21 : Bool) (_rn _rd : Reg) (_imm12 : BitVec 12) (s : State) :
    Host.Outcome State Fault Refusal :=
  conditional c noHandler s

/-- STR: Unimplemented when executed (44_single_data_transfer.md R217). -/
def execStr (c : Cond) (_i _b24 _u _b22 _b21 : Bool) (_rn _rd : Reg) (_offset : BitVec 12) (s : State) :
    Host.Outcome State Fault Refusal :=
  conditional c noHandler s

/-- PLD: its condition is NV, so its handler, which would raise Unimplemented, never runs
(44_single_data_transfer.md R218). -/
def execPld (_rest : BitVec 26) (s : State) : Host.Outcome State Fault Refusal :=
  conditional .nv noHandler s

end Sys2Proof.Machine
end

