-- ==== Sys2Proof/Machine/Undecodable.lean ====
section
/-! DEFINITION. The three undecodable patterns (30_encoding.md R82): decoding comes before the condition test, so each
raises Undecodable whatever its condition field and whatever the flags (60_exceptions.md R231). -/

namespace Sys2Proof.Machine

/-- Bits 27-25 = 100 (30_encoding.md R82). -/
def execUndecodable100 (_c : Cond) (_rest : BitVec 25) (s : State) : Host.Outcome State Fault Refusal :=
  .next (s.raise .undecodable)

/-- Bits 27-25 = 110 (30_encoding.md R82). -/
def execUndecodable110 (_c : Cond) (_rest : BitVec 25) (s : State) : Host.Outcome State Fault Refusal :=
  .next (s.raise .undecodable)

/-- Bits 27-25 = 111 (30_encoding.md R82). -/
def execUndecodable111 (_c : Cond) (_rest : BitVec 25) (s : State) : Host.Outcome State Fault Refusal :=
  .next (s.raise .undecodable)

end Sys2Proof.Machine
end

