-- ==== Sys2Proof/Machine/Dispatch.lean ====
section
/-! DEFINITION. The dispatch of a decoded instruction to its meaning, which is the MaybeExecute and Advance phases of
the step (40_step_and_condition.md R113, R114), or the fault of an undecodable opcode (R112). -/

namespace Sys2Proof.Machine

def exec (i : Instr) (s : State) : Host.Outcome State Fault Refusal :=
  match i with
  | .b c offset24 => Sys2Proof.Machine.execB c offset24 s
  | .bl c offset24 => Sys2Proof.Machine.execBl c offset24 s
  | .andImm c sf rn rd rotate imm8 => Sys2Proof.Machine.execAndImm c sf rn rd rotate imm8 s
  | .andShiftImm c sf rn rd amount ty rm => Sys2Proof.Machine.execAndShiftImm c sf rn rd amount ty rm s
  | .andShiftReg c sf rn rd rs bit7 ty rm => Sys2Proof.Machine.execAndShiftReg c sf rn rd rs bit7 ty rm s
  | .eorImm c sf rn rd rotate imm8 => Sys2Proof.Machine.execEorImm c sf rn rd rotate imm8 s
  | .eorShiftImm c sf rn rd amount ty rm => Sys2Proof.Machine.execEorShiftImm c sf rn rd amount ty rm s
  | .eorShiftReg c sf rn rd rs bit7 ty rm => Sys2Proof.Machine.execEorShiftReg c sf rn rd rs bit7 ty rm s
  | .subImm c sf rn rd rotate imm8 => Sys2Proof.Machine.execSubImm c sf rn rd rotate imm8 s
  | .subShiftImm c sf rn rd amount ty rm => Sys2Proof.Machine.execSubShiftImm c sf rn rd amount ty rm s
  | .subShiftReg c sf rn rd rs bit7 ty rm => Sys2Proof.Machine.execSubShiftReg c sf rn rd rs bit7 ty rm s
  | .rsbImm c sf rn rd rotate imm8 => Sys2Proof.Machine.execRsbImm c sf rn rd rotate imm8 s
  | .rsbShiftImm c sf rn rd amount ty rm => Sys2Proof.Machine.execRsbShiftImm c sf rn rd amount ty rm s
  | .rsbShiftReg c sf rn rd rs bit7 ty rm => Sys2Proof.Machine.execRsbShiftReg c sf rn rd rs bit7 ty rm s
  | .addImm c sf rn rd rotate imm8 => Sys2Proof.Machine.execAddImm c sf rn rd rotate imm8 s
  | .addShiftImm c sf rn rd amount ty rm => Sys2Proof.Machine.execAddShiftImm c sf rn rd amount ty rm s
  | .addShiftReg c sf rn rd rs bit7 ty rm => Sys2Proof.Machine.execAddShiftReg c sf rn rd rs bit7 ty rm s
  | .adcImm c sf rn rd rotate imm8 => Sys2Proof.Machine.execAdcImm c sf rn rd rotate imm8 s
  | .adcShiftImm c sf rn rd amount ty rm => Sys2Proof.Machine.execAdcShiftImm c sf rn rd amount ty rm s
  | .adcShiftReg c sf rn rd rs bit7 ty rm => Sys2Proof.Machine.execAdcShiftReg c sf rn rd rs bit7 ty rm s
  | .sbcImm c sf rn rd rotate imm8 => Sys2Proof.Machine.execSbcImm c sf rn rd rotate imm8 s
  | .sbcShiftImm c sf rn rd amount ty rm => Sys2Proof.Machine.execSbcShiftImm c sf rn rd amount ty rm s
  | .sbcShiftReg c sf rn rd rs bit7 ty rm => Sys2Proof.Machine.execSbcShiftReg c sf rn rd rs bit7 ty rm s
  | .rscImm c sf rn rd rotate imm8 => Sys2Proof.Machine.execRscImm c sf rn rd rotate imm8 s
  | .rscShiftImm c sf rn rd amount ty rm => Sys2Proof.Machine.execRscShiftImm c sf rn rd amount ty rm s
  | .rscShiftReg c sf rn rd rs bit7 ty rm => Sys2Proof.Machine.execRscShiftReg c sf rn rd rs bit7 ty rm s
  | .tstImm c sf rn rd rotate imm8 => Sys2Proof.Machine.execTstImm c sf rn rd rotate imm8 s
  | .tstShiftImm c sf rn rd amount ty rm => Sys2Proof.Machine.execTstShiftImm c sf rn rd amount ty rm s
  | .tstShiftReg c sf rn rd rs bit7 ty rm => Sys2Proof.Machine.execTstShiftReg c sf rn rd rs bit7 ty rm s
  | .teqImm c sf rn rd rotate imm8 => Sys2Proof.Machine.execTeqImm c sf rn rd rotate imm8 s
  | .teqShiftImm c sf rn rd amount ty rm => Sys2Proof.Machine.execTeqShiftImm c sf rn rd amount ty rm s
  | .teqShiftReg c sf rn rd rs bit7 ty rm => Sys2Proof.Machine.execTeqShiftReg c sf rn rd rs bit7 ty rm s
  | .cmpImm c sf rn rd rotate imm8 => Sys2Proof.Machine.execCmpImm c sf rn rd rotate imm8 s
  | .cmpShiftImm c sf rn rd amount ty rm => Sys2Proof.Machine.execCmpShiftImm c sf rn rd amount ty rm s
  | .cmpShiftReg c sf rn rd rs bit7 ty rm => Sys2Proof.Machine.execCmpShiftReg c sf rn rd rs bit7 ty rm s
  | .cmnImm c sf rn rd rotate imm8 => Sys2Proof.Machine.execCmnImm c sf rn rd rotate imm8 s
  | .cmnShiftImm c sf rn rd amount ty rm => Sys2Proof.Machine.execCmnShiftImm c sf rn rd amount ty rm s
  | .cmnShiftReg c sf rn rd rs bit7 ty rm => Sys2Proof.Machine.execCmnShiftReg c sf rn rd rs bit7 ty rm s
  | .orrImm c sf rn rd rotate imm8 => Sys2Proof.Machine.execOrrImm c sf rn rd rotate imm8 s
  | .orrShiftImm c sf rn rd amount ty rm => Sys2Proof.Machine.execOrrShiftImm c sf rn rd amount ty rm s
  | .orrShiftReg c sf rn rd rs bit7 ty rm => Sys2Proof.Machine.execOrrShiftReg c sf rn rd rs bit7 ty rm s
  | .movImm c sf rn rd rotate imm8 => Sys2Proof.Machine.execMovImm c sf rn rd rotate imm8 s
  | .movShiftImm c sf rn rd amount ty rm => Sys2Proof.Machine.execMovShiftImm c sf rn rd amount ty rm s
  | .movShiftReg c sf rn rd rs bit7 ty rm => Sys2Proof.Machine.execMovShiftReg c sf rn rd rs bit7 ty rm s
  | .bicImm c sf rn rd rotate imm8 => Sys2Proof.Machine.execBicImm c sf rn rd rotate imm8 s
  | .bicShiftImm c sf rn rd amount ty rm => Sys2Proof.Machine.execBicShiftImm c sf rn rd amount ty rm s
  | .bicShiftReg c sf rn rd rs bit7 ty rm => Sys2Proof.Machine.execBicShiftReg c sf rn rd rs bit7 ty rm s
  | .mvnImm c sf rn rd rotate imm8 => Sys2Proof.Machine.execMvnImm c sf rn rd rotate imm8 s
  | .mvnShiftImm c sf rn rd amount ty rm => Sys2Proof.Machine.execMvnShiftImm c sf rn rd amount ty rm s
  | .mvnShiftReg c sf rn rd rs bit7 ty rm => Sys2Proof.Machine.execMvnShiftReg c sf rn rd rs bit7 ty rm s
  | .ldrReg c b24 u b22 b21 rn rd amount ty rm => Sys2Proof.Machine.execLdrReg c b24 u b22 b21 rn rd amount ty rm s
  | .ldrRegBit4 c b24 u b22 b21 rn rd offHi offLo => Sys2Proof.Machine.execLdrRegBit4 c b24 u b22 b21 rn rd offHi offLo s
  | .ldrImm c b24 u b22 b21 rn rd imm12 => Sys2Proof.Machine.execLdrImm c b24 u b22 b21 rn rd imm12 s
  | .str c i25 b24 u b22 b21 rn rd offset => Sys2Proof.Machine.execStr c i25 b24 u b22 b21 rn rd offset s
  | .pld rest => Sys2Proof.Machine.execPld rest s
  | .undecodable100 c rest => Sys2Proof.Machine.execUndecodable100 c rest s
  | .undecodable110 c rest => Sys2Proof.Machine.execUndecodable110 c rest s
  | .undecodable111 c rest => Sys2Proof.Machine.execUndecodable111 c rest s

end Sys2Proof.Machine
end

