-- ==== Sys2Proof/Machine/Step.lean ====
section
/-! DEFINITION. One step of the core (40_step_and_condition.md R110), and the placing of an opcode where the next step
fetches. -/

namespace Sys2Proof.Machine

/-- `step()` of 40_step_and_condition.md R110: a halted core does nothing (R120); Fetch may raise; the fetched word is
decoded and run. A configuration with CODE_LEN above 2^32 is refused before a run (93_implementation_defined.md row
22, log entry 5). -/
def step (s : State) : Host.Outcome State Fault Refusal :=
  if codeLenOk s then
    match s.latch with
    | some _ => .next s
    | none =>
      match fetch s with
      | .error f => .next (s.raise f)
      | .ok w => exec (decode w) s
  else .refused .codeLenAboveLimit

/-- `s` with the opcode whose bits are `w` (those at and above `nbits` taken as 0) stored in the code image at the
program counter, the image made long enough to hold it and never longer than 2^32: what an image supplied from outside
does (log entry 2). The program counter and the latch stay as they are (log entry 12). -/
def State.withFetchWord (s : State) (nbits w : Nat) : State :=
  let a := s.pc.toNat
  { s with
    image := (s.image.extend (min (a + 4) (2 ^ 32))).writeBytes a (bytesOfWord (BitVec.ofNat 32 (w % 2 ^ nbits))) }

end Sys2Proof.Machine
end

