-- ==== Sys2Proof/Machine/Ports.lean ====
section
/-! DEFINITION. The host interface (00_scope.md R9): construction and reset, step, and introspection, with the ports of
00_scope.md R8 that carry a value. The clock and the request handshake carry none (log entry 10). -/

namespace Sys2Proof.Machine

/-- Construction: a core built from parameters and a byte buffer (00_scope.md R9, 70_reset_and_hazards.md R260). -/
def construct (cfg : Config) (bytes : List Byte) : State := State.resetWith cfg (Memory.ofBytes bytes)

/-- `rst`: every register, flag and the latch take their reset values; the image is supplied with reset and the
parameters stay (70_reset_and_hazards.md R260). -/
def hostReset (s : State) (image : Memory) : State := State.resetWith s.cfg image

/-- `dbg_pc_set`, `dbg_pc_val`: register 15 takes any value, between steps (00_scope.md R8, 10_state.md R27). -/
def hostSetPc (s : State) (v : Word) : State := s.set 15 v

/-- `dbg_reg_val`: the raw value of a register, with no adjustment (00_scope.md R8, 10_state.md R34). -/
def dbgRegVal (s : State) (i : Reg) : Word := s.get i

/-- `dbg_flags`: N, Z, C, V, with N in the most significant position (00_scope.md R8). -/
def dbgFlags (s : State) : BitVec 4 :=
  BitVec.ofBool s.flags.n ++ BitVec.ofBool s.flags.z ++ BitVec.ofBool s.flags.c ++ BitVec.ofBool s.flags.v

/-- `halted`: the latch is not None (00_scope.md R8). -/
def halted (s : State) : Bool := s.latch.isSome

/-- `fault_code`: the code of the latch (60_exceptions.md R230). -/
def faultCode (s : State) : BitVec 3 :=
  match s.latch with
  | none => 0
  | some .undecodable => 1
  | some .unimplemented => 2
  | some .fetchOutOfBounds => 3
  | some .misalignedFetch => 4

/-- `code_addr`: register 15 at the start of the step (00_scope.md R8). -/
def codeAddr (s : State) : Word := s.pc

/-- `code_rdata`: the word at `code_addr` (00_scope.md R8, 20_memory.md R51). Where R52 or R53 does not admit the fetch
the spec gives the port no value: there it is a free value, DESIGN CHOICE (log entry 14). -/
def codeRdata (s : State) : Word :=
  match fetch s with
  | .ok w => w
  | .error _ => Config.codeRdataRefused s.pc

/-- `code_len`: 33 bits, CODE_LEN (00_scope.md R8); a length those bits do not hold is refused by `step` (log entry 5). -/
def codeLen (s : State) : BitVec 33 := BitVec.ofNat 33 s.image.len

/-- What the host can do to the core, one at a time and only between steps (00_scope.md R9, R8). -/
inductive HostAction where
  | reset (image : Memory)
  | step
  | setPc (v : Word)
  deriving DecidableEq, Repr

/-- The core after a host action (00_scope.md R9). -/
def hostAct (a : HostAction) (s : State) : Host.Outcome State Fault Refusal :=
  match a with
  | .reset image => .next (hostReset s image)
  | .step => Sys2Proof.Machine.step s
  | .setPc v => .next (hostSetPc s v)

end Sys2Proof.Machine
end

