-- ==== Sys2Proof/Safety.lean ====
section
/-! DEFINITION. What counts as a sound state and a safe run, in the terms claims use: which instructions have no
handler (30_encoding.md R83), which registers an instruction may write (10_state.md R23), what a set latch says of the
state it was set in (60_exceptions.md R230, R236), and the invariant a step keeps. -/

namespace Sys2Proof.Machine

/-- The instruction is one of the three undecodable patterns (30_encoding.md R82). -/
def isUndecodable (i : Instr) : Bool :=
  match i with
  | .undecodable100 _ _ | .undecodable110 _ _ | .undecodable111 _ _ => true
  | _ => false

/-- Operand 2 is a rotation by 0 on a core without RRX (30_encoding.md R83, second row). -/
def operandMissing (s : State) (o : Operand2) : Bool :=
  match o with
  | .imm _ _ => false
  | .shiftImm amount ty _ => rorZeroMissing s.cfg ty amount.toNat
  | .shiftReg rs _ ty _ => rorZeroMissing s.cfg ty (shiftAmount s rs)

/-- The complete list of 30_encoding.md R83: the instruction decodes and has no execution in this state. -/
def lacksHandler (i : Instr) (s : State) : Bool :=
  match i.dataProcessing?, i with
  | some d, _ => decide (d.op ∉ s.cfg.aluHandlers) || operandMissing s d.op2
  | none, .ldrReg _ _ _ _ _ _ _ amount ty _ => rorZeroMissing s.cfg ty amount.toNat
  | none, .ldrRegBit4 _ _ _ _ _ _ _ _ _ | none, .ldrImm _ _ _ _ _ _ _ _ => true
  | none, .str _ _ _ _ _ _ _ _ _ | none, .pld _ => true
  | none, _ => false

/-- The registers an instruction that executes may write besides the Advance of register 15 (10_state.md R23). -/
def mayWrite (i : Instr) (r : Reg) : Bool :=
  match i.dataProcessing?, i with
  | some d, _ => writesRd d.op && (r == d.rd)
  | none, .ldrReg _ _ _ _ _ _ rd _ _ _ => r == rd
  | none, .b _ _ => r == 15
  | none, .bl _ _ => (r == 14) || (r == 15)
  | none, _ => false

/-- The instruction may write a flag: data processing with S = 1, or TEQ (10_state.md R30). -/
def mayWriteFlags (i : Instr) : Bool :=
  match i.dataProcessing? with
  | some d => d.setFlags || writesNzAlways d.op
  | none => false

/-- The word at R[15] can be fetched: aligned and inside the image (20_memory.md R52, R53). -/
def fetchable (s : State) : Bool :=
  (s.pc.toNat % 4 == 0) && decide (s.pc.toNat + 4 ≤ s.image.len)

/-- The opcode at R[15] (20_memory.md R51). -/
def opcodeAtPc (s : State) : Word := codeRead32 s.image s.pc.toNat

/-- A set latch tells why: because a faulting step writes nothing else, R[15] still points at the opcode (or the
refused fetch) that faulted, and its flags and parameters still make it fault (60_exceptions.md R230, R236). -/
def latchExplained (s : State) : Bool :=
  match s.latch with
  | none => true
  | some .misalignedFetch => s.pc.toNat % 4 != 0
  | some .fetchOutOfBounds => (s.pc.toNat % 4 == 0) && decide (s.image.len < s.pc.toNat + 4)
  | some .undecodable => fetchable s && isUndecodable (decode (opcodeAtPc s))
  | some .unimplemented =>
    fetchable s && canExecute (decode (opcodeAtPc s)).cond s.flags && lacksHandler (decode (opcodeAtPc s)) s

/-- The invariant every step keeps: the image is in canonical form and at most 2^32 bytes long (00_scope.md R5), and a
set latch is explained. The host's set-PC operation on a halted core may break the last part: it is not a step. -/
abbrev Inv (s : State) : Prop :=
  s.image.wf ∧ s.image.len ≤ 2 ^ 32 ∧ latchExplained s = true

/-- A safe step: it ends in a next state whose latch is not set. -/
def StepsSafely (s : State) : Prop := ∃ t, step s = .next t ∧ t.latch = none

end Sys2Proof.Machine
end

