-- ==== Sys2Proof/Certificates/Slice0/Obligations.lean ====
section
/-! DEFINITION. The statements about the model, each a rule of spec/ or a consequence of its rules. The definitions
under Sys2Proof.Claims say what a state holds before and after in the spec's own terms, without the functions the
meanings use, except the shifter, whose results have statements of their own. -/

namespace Sys2Proof.Claims

open Sys2Proof.Machine

/-- The condition table of 40_step_and_condition.md R116, as the source's formulas. -/
def Passes (c : Cond) (f : Flags) : Prop :=
  match c with
  | .eq => f.z = true
  | .ne => f.z = false
  | .cs => f.c = true
  | .cc => f.c = false
  | .mi => f.n = true
  | .pl => f.n = false
  | .vs => f.v = true
  | .vc => f.v = false
  | .hi => f.c = true ∧ f.z = false
  | .ls => f.c = false ∨ f.z = true
  | .ge => f.n = f.v
  | .lt => f.n ≠ f.v
  | .gt => f.n = f.v ∧ f.z = false
  | .le => f.n ≠ f.v ∨ f.z = true
  | .al => True
  | .nv => False

/-- An operand read: R[i], with 8 added for register 15 (10_state.md R24). -/
def operandValue (s : State) (i : Reg) : Word := if i = 15 then s.get 15 + 8#32 else s.get i

/-- The amount of a shift by register: the low 8 bits of Rs (41_barrel_shifter.md R142). -/
def registerAmount (s : State) (rs : Reg) : Nat := (operandValue s rs).toNat % 256

/-- The value and carry-out of operand 2 (41_barrel_shifter.md R140, R141, R142). -/
def operand2Of (s : State) (o : Operand2) : ShiftOut :=
  match o with
  | .imm rotate imm8 =>
    let v := (imm8.setWidth 32).rotateRight (2 * rotate.toNat)
    ⟨v, if rotate = 0#4 then s.flags.c else v.getLsbD 31⟩
  | .shiftImm amount ty rm => shift ty amount.toNat (operandValue s rm) s.flags.c
  | .shiftReg rs _ ty rm => shift ty (registerAmount s rs) (operandValue s rm) s.flags.c

/-- Operand 2 has a value: it is no rotation by 0, or RRX is implemented (41_barrel_shifter.md R138). -/
def RrxReady (s : State) (o : Operand2) : Prop :=
  match o with
  | .imm _ _ => True
  | .shiftImm amount ty _ => ty = .ror → amount = 0#5 → s.cfg.rrxImplemented = true
  | .shiftReg rs _ ty _ => ty = .ror → registerAmount s rs = 0 → s.cfg.rrxImplemented = true

/-- The latch, the code image and the parameters are those before. -/
def SameRest (s t : State) : Prop := t.latch = s.latch ∧ t.image = s.image ∧ t.cfg = s.cfg

/-- Every register but 15 is as before, and 15 is advanced by 4 (40_step_and_condition.md R114). -/
def WritesNoRegister (s t : State) : Prop :=
  (∀ j : Reg, j ≠ 15 → t.get j = s.get j) ∧ t.get 15 = s.get 15 + 4#32

/-- R[rd] takes `r` and no other register is written; the Advance then adds 4 to register 15, to `r` where rd is 15
(42_data_processing.md R163, 10_state.md R28). -/
def WritesResult (s t : State) (rd : Reg) (r : Word) : Prop :=
  (∀ j : Reg, j ≠ 15 → t.get j = if j = rd then r else s.get j) ∧
    t.get 15 = (if rd = 15 then r else s.get 15) + 4#32

/-- The flag update of a logical operation (42_data_processing.md R161). -/
def LogicalFlags (s t : State) (sf : Bool) (r : Word) (sc : Bool) : Prop :=
  t.flags = if sf then ⟨r.getLsbD 31, decide (r = 0#32), sc, s.flags.v⟩ else s.flags

/-- The flag update of an arithmetic operation with the given carry and overflow (42_data_processing.md R162). -/
def ArithmeticFlags (s t : State) (sf : Bool) (r : Word) (carry overflow : Bool) : Prop :=
  t.flags = if sf then ⟨r.getLsbD 31, decide (r = 0#32), carry, overflow⟩ else s.flags

/-- `i` raises `f` in `s`: the latch takes the fault and nothing else changes (60_exceptions.md R236). -/
def Raises (i : Instr) (s : State) (f : FaultKind) : Prop := exec i s = .next { s with latch := some f }

/-- `i` does nothing in `s` but advance register 15 by 4 (40_step_and_condition.md R113). -/
def OnlyAdvances (i : Instr) (s : State) : Prop :=
  ∃ t, exec i s = .next t ∧ WritesNoRegister s t ∧ t.flags = s.flags ∧ SameRest s t

/-- The carry flag as a number. -/
def carryNat (s : State) : Nat := s.flags.c.toNat

/-- What 42_data_processing.md says of operation `k` in all three operand forms (the constructors kImm, kShiftImm and
kShiftReg): it completes with `effect s t sf rd a b sc` (before, after, S, Rd, first operand, operand 2, shifter carry)
when its condition passes, it has a handler and operand 2 has a value; it raises Unimplemented when its condition
passes and one of the two fails; and it only advances when its condition fails. -/
def AluRule (k : AluOp) (effect : State → State → Bool → Reg → Word → Word → Bool → Prop) : Prop :=
  ∀ (c : Cond) (sf : Bool) (rn rd : Reg) (o : Operand2) (s : State),
    (Passes c s.flags → k ∈ s.cfg.aluHandlers → RrxReady s o →
      ∃ t, exec (.dataProcessing k c sf rn rd o) s = .next t ∧ SameRest s t ∧
        effect s t sf rd (operandValue s rn) (operand2Of s o).value (operand2Of s o).carry) ∧
    (Passes c s.flags → (k ∉ s.cfg.aluHandlers ∨ ¬ RrxReady s o) →
      Raises (.dataProcessing k c sf rn rd o) s .unimplemented) ∧
    (¬ Passes c s.flags → OnlyAdvances (.dataProcessing k c sf rn rd o) s)

/-- The eight logical operations (42_data_processing.md R161). -/
def isLogical (k : AluOp) : Bool :=
  match k with
  | .and | .eor | .tst | .teq | .orr | .mov | .bic | .mvn => true
  | .sub | .rsb | .add | .adc | .sbc | .rsc | .cmp | .cmn => false

/-- A step of `s` fetches a word: a legal code length, no fault latched, R[15] aligned and inside the image
(40_step_and_condition.md R110). -/
def Fetches (s : State) : Prop :=
  s.image.len ≤ 2 ^ 32 ∧ s.latch = none ∧ (s.get 15).toNat % 4 = 0 ∧ (s.get 15).toNat + 4 ≤ s.image.len

/-- The branch immediate of 43_branch.md R202: the 24-bit field times 4, read unsigned or signed by the parameter. -/
def branchOffset (s : State) (offset24 : BitVec 24) : Word :=
  BitVec.ofInt 32 (4 * (if s.cfg.branchOffsetSigned then offset24.toInt else (offset24.toNat : Int)))

/-- The jump of 43_branch.md R200: register 15 ends at X + 12 + imm. -/
def Jumps (s t : State) (offset24 : BitVec 24) : Prop := t.get 15 = s.get 15 + 12#32 + branchOffset s offset24

end Sys2Proof.Claims

open Sys2Proof Sys2Proof.Machine Sys2Proof.Claims

/-- 40_step_and_condition.md R110, R111: a step that can fetch runs exactly the decoded instruction. -/
def Obligations.StepRunsDecodedInstruction : Prop :=
  ∀ (s : State) (i : Instr), Fetches s →
    decodeBytes [s.image.read (s.get 15).toNat, s.image.read ((s.get 15).toNat + 1),
      s.image.read ((s.get 15).toNat + 2), s.image.read ((s.get 15).toNat + 3)] = .ok (i, []) →
    step s = exec i s

/-- 60_exceptions.md R233, R234, in the order of R237. -/
def Obligations.FetchFaultsByAlignmentThenBound : Prop :=
  ∀ s : State, s.image.len ≤ 2 ^ 32 → s.latch = none →
    ((s.get 15).toNat % 4 ≠ 0 → step s = .next { s with latch := some .misalignedFetch }) ∧
    ((s.get 15).toNat % 4 = 0 → s.image.len < (s.get 15).toNat + 4 →
      step s = .next { s with latch := some .fetchOutOfBounds })

/-- 40_step_and_condition.md R120. -/
def Obligations.HaltedCoreDoesNothing : Prop :=
  ∀ (s : State) (f : FaultKind), s.image.len ≤ 2 ^ 32 → s.latch = some f → step s = .next s

/-- 70_reset_and_hazards.md R268: no step hangs; the refusal is the model's choice of log entry 5. -/
def Obligations.StepAlwaysCompletes : Prop :=
  ∀ s : State, (s.image.len ≤ 2 ^ 32 → ∃ t, step s = .next t) ∧
    (2 ^ 32 < s.image.len → step s = .refused .codeLenAboveLimit)

/-- 10_state.md R35 and 70_reset_and_hazards.md R260. The image and parameters of State.reset are log entry 2, and no clause here rests on them. -/
def Obligations.ResetGivesTheResetValues : Prop :=
  (∀ (s : State) (image : Memory) (i : Reg), (hostReset s image).get i = 0#32 ∧
      (hostReset s image).flags = ⟨false, false, false, false⟩ ∧ (hostReset s image).latch = none ∧
      (hostReset s image).image = image ∧ (hostReset s image).cfg = s.cfg) ∧
    (∀ i : Reg, State.reset.get i = 0#32) ∧ State.reset.flags = ⟨false, false, false, false⟩ ∧
      State.reset.latch = none

/-- 00_scope.md R9 and R8 (dbg_pc_set), 10_state.md R27 (no masking). That it also works on a halted core, with the latch kept, is log entry 9. -/
def Obligations.HostSetPcWritesOnlyRegister15 : Prop :=
  ∀ (s : State) (v : Word), ∃ t, hostAct (.setPc v) s = .next t ∧ t.get 15 = v ∧
    (∀ j : Reg, j ≠ 15 → t.get j = s.get j) ∧ t.flags = s.flags ∧ SameRest s t

/-- 20_memory.md R59: the image is immutable; 00_scope.md R5: no parameter changes during a run. -/
def Obligations.StepNeverChangesImageOrParameters : Prop :=
  ∀ s t : State, step s = .next t → t.image = s.image ∧ t.cfg = s.cfg

/-- The invariant of Safety.lean at reset; the form of the image is log entry 3. -/
def Obligations.InvariantHoldsAtReset : Prop :=
  Inv State.reset ∧ ∀ (cfg : Config) (image : Memory), image.wf → image.len ≤ 2 ^ 32 → Inv (State.resetWith cfg image)

/-- 60_exceptions.md R230 and R236: after a fault R[15] still holds the offset of the instruction, or refused fetch, that faulted. -/
def Obligations.StepKeepsInvariant : Prop :=
  ∀ s t : State, Inv s → step s = .next t → Inv t

/-- 60_exceptions.md R236. -/
def Obligations.FaultsArePrecise : Prop :=
  ∀ (s t : State) (f : FaultKind), s.latch = none → step s = .next t → t.latch = some f →
    t = { s with latch := some f } ∧ halted t = true ∧ faultCode t ≠ 0#3

/-- 30_encoding.md R87: decoding the word of a known instruction reproduces it. -/
def Obligations.DecodeOfEncodeIsTheInstruction : Prop :=
  ∀ i : Instr, i.wellFormed = true → decode (encode i) = i

/-- 30_encoding.md R87 (total) with the ignored bits kept, the model's choice of log entry 6. -/
def Obligations.EncodeOfDecodeIsTheWord : Prop :=
  ∀ w : Word, (decode w).wellFormed = true ∧ encode (decode w) = w

/-- 30_encoding.md R90, whose sentence on exactly one row is marked derived. -/
def Obligations.EveryWordSelectsExactlyItsRow : Prop :=
  opcodeTable.length = 58 ∧ opcodeTable.Nodup ∧
    ∀ w : Word, (decode w).row ∈ opcodeTable ∧ ∀ r ∈ opcodeTable, r.selects w = true ↔ r = (decode w).row

/-- Words of 95_test_vectors.md sections 1 and 2. -/
def Obligations.WrittenWordsDecodeAsTheSpecSays : Prop :=
  decodeTableWord 32 0xEA000003 = some (.b .al 3) ∧
    decodeTableWord 32 0xFB000000 = some (.bl .nv 0) ∧
    decodeTableWord 32 0xE3A0F00F = some (.movImm .al false 0 15 0 15) ∧
    decodeTableWord 32 0xE3110102 = some (.tstImm .al true 1 0 1 2) ∧
    decodeTableWord 32 0xE13100A2 = some (.teqShiftImm .al true 1 0 1 .lsr 2) ∧
    decodeTableWord 32 0xE12FFF1E = some (.teqShiftReg .al false 15 15 15 false .lsl 14) ∧
    decodeTableWord 32 0xE0010291 = some (.andShiftReg .al false 1 0 2 true .lsl 1) ∧
    decodeTableWord 32 0xE71FD101 = some (.ldrReg .al true false false false 15 13 2 .lsl 1) ∧
    decodeTableWord 32 0xE7910312 = some (.ldrRegBit4 .al true true false false 1 0 0x18 2) ∧
    decodeTableWord 32 0x15910004 = some (.ldrImm .ne true true false false 1 0 4) ∧
    decodeTableWord 32 0xE7810002 = some (.str .al true true true false false 1 0 2) ∧
    decodeTableWord 32 0xF5D1F000 = some (.pld 0x1D1F000) ∧
    decodeTableWord 32 0x0E000000 = some (.undecodable111 .eq 0)

/-- 20_memory.md R51, where R52 and R53 admit the access; at the other offsets the model's choice of log entry 14. -/
def Obligations.CodeWordIsLittleEndian : Prop :=
  ∀ (m : Memory) (a : Nat), (codeRead32 m a).toNat =
    (m.read a).toNat + (m.read (a + 1)).toNat * 2 ^ 8 + (m.read (a + 2)).toNat * 2 ^ 16 +
      (m.read (a + 3)).toNat * 2 ^ 24

/-- withFetchWord stands for an image supplied from outside (log entries 2 and 12). -/
def Obligations.PlacedWordRunsNext : Prop :=
  ∀ (s : State) (w : Nat), s.image.wf → s.image.len ≤ 2 ^ 32 → s.latch = none → (s.get 15).toNat % 4 = 0 →
    step (s.withFetchWord 32 w) = exec (decode (BitVec.ofNat 32 w)) (s.withFetchWord 32 w) ∧
    (s.withFetchWord 32 w).regs = s.regs ∧ (s.withFetchWord 32 w).flags = s.flags ∧
    (s.withFetchWord 32 w).latch = s.latch ∧ (s.withFetchWord 32 w).cfg = s.cfg ∧
    (s.withFetchWord 32 w).image.wf ∧ (s.withFetchWord 32 w).image.len ≤ 2 ^ 32

/-- 40_step_and_condition.md R113 with the table of R116; the NV case is R117. -/
def Obligations.FailedConditionOnlyAdvances : Prop :=
  ∀ (i : Instr) (s : State), isUndecodable i = false → ¬ Passes i.cond s.flags → OnlyAdvances i s

/-- 60_exceptions.md R231 and 30_encoding.md R82. Constructors undecodable100, undecodable110, undecodable111. -/
def Obligations.UndecodableAlwaysFaults : Prop :=
  (∀ (c : Cond) (rest : BitVec 25) (s : State), Raises (.undecodable100 c rest) s .undecodable ∧
      Raises (.undecodable110 c rest) s .undecodable ∧ Raises (.undecodable111 c rest) s .undecodable) ∧
    (∀ s : State, Fetches s →
      ((codeRead32 s.image (s.get 15).toNat).extractLsb' 25 3 = 0b100#3 ∨
        (codeRead32 s.image (s.get 15).toNat).extractLsb' 25 3 = 0b110#3 ∨
        (codeRead32 s.image (s.get 15).toNat).extractLsb' 25 3 = 0b111#3) →
      step s = .next { s with latch := some .undecodable }) ∧
    (∀ (i : Instr) (s t : State), isUndecodable i = false → exec i s = .next t → t.latch = some .undecodable →
      s.latch = some .undecodable)

/-- 60_exceptions.md R232 and 30_encoding.md R83; the list is lacksHandler of Safety.lean. -/
def Obligations.UnimplementedHasExactlyTheListedCauses : Prop :=
  (∀ (i : Instr) (s : State), s.latch = none →
      (Raises i s .unimplemented ↔ Passes i.cond s.flags ∧ lacksHandler i s = true)) ∧
    (∀ (i : Instr) (s : State) (d : DataProcessing), s.cfg = Config.arch → i.dataProcessing? = some d →
      lacksHandler i s = false) ∧
    (∀ (c : Cond) (b24 u b22 b21 : Bool) (rn rd rm : Reg) (amount : BitVec 5) (ty : ShiftType) (s : State),
      s.cfg = Config.arch → lacksHandler (.ldrReg c b24 u b22 b21 rn rd amount ty rm) s = false)

/-- 42_data_processing.md R164. Constructors andImm, andShiftImm, andShiftReg. -/
def Obligations.AndWritesConjunction : Prop :=
  AluRule .and fun s t sf rd a b sc =>
    WritesResult s t rd (a &&& b) ∧ LogicalFlags s t sf (a &&& b) sc

/-- 42_data_processing.md R165. Constructors eorImm, eorShiftImm, eorShiftReg. -/
def Obligations.EorWritesExclusiveOr : Prop :=
  AluRule .eor fun s t sf rd a b sc =>
    WritesResult s t rd (a ^^^ b) ∧ LogicalFlags s t sf (a ^^^ b) sc

/-- 42_data_processing.md R166. Constructors subImm, subShiftImm, subShiftReg. -/
def Obligations.SubWritesDifference : Prop :=
  AluRule .sub fun s t sf rd a b _ =>
    WritesResult s t rd (a - b) ∧
      ArithmeticFlags s t sf (a - b) (decide (b.toNat ≤ a.toNat))
        (decide (a.toInt - b.toInt ≠ (a - b).toInt))

/-- 42_data_processing.md R167. Constructors rsbImm, rsbShiftImm, rsbShiftReg. -/
def Obligations.RsbWritesReverseDifference : Prop :=
  AluRule .rsb fun s t sf rd a b _ =>
    WritesResult s t rd (b - a) ∧
      ArithmeticFlags s t sf (b - a) (decide (a.toNat ≤ b.toNat))
        (decide (b.toInt - a.toInt ≠ (b - a).toInt))

/-- 42_data_processing.md R168. Constructors addImm, addShiftImm, addShiftReg. -/
def Obligations.AddWritesSum : Prop :=
  AluRule .add fun s t sf rd a b _ =>
    WritesResult s t rd (a + b) ∧
      ArithmeticFlags s t sf (a + b) (decide (2 ^ 32 ≤ a.toNat + b.toNat))
        (decide (a.toInt + b.toInt ≠ (a + b).toInt))

/-- 42_data_processing.md R169. Constructors adcImm, adcShiftImm, adcShiftReg. -/
def Obligations.AdcWritesSumWithCarry : Prop :=
  AluRule .adc fun s t sf rd a b _ =>
    WritesResult s t rd (a + b + BitVec.ofNat 32 (carryNat s)) ∧
      ArithmeticFlags s t sf (a + b + BitVec.ofNat 32 (carryNat s)) (decide (2 ^ 32 ≤ a.toNat + b.toNat + carryNat s))
        (decide (a.toInt + b.toInt + carryNat s ≠ (a + b + BitVec.ofNat 32 (carryNat s)).toInt))

/-- 42_data_processing.md R170. Constructors sbcImm, sbcShiftImm, sbcShiftReg. -/
def Obligations.SbcWritesDifferenceWithBorrow : Prop :=
  AluRule .sbc fun s t sf rd a b _ =>
    WritesResult s t rd (a - b - BitVec.ofNat 32 (1 - carryNat s)) ∧
      ArithmeticFlags s t sf (a - b - BitVec.ofNat 32 (1 - carryNat s)) (decide (b.toNat + (1 - carryNat s) ≤ a.toNat))
        (decide (a.toInt - b.toInt - ((1 - carryNat s : Nat) : Int) ≠ (a - b - BitVec.ofNat 32 (1 - carryNat s)).toInt))

/-- 42_data_processing.md R171. Constructors rscImm, rscShiftImm, rscShiftReg. -/
def Obligations.RscWritesReverseDifferenceWithBorrow : Prop :=
  AluRule .rsc fun s t sf rd a b _ =>
    WritesResult s t rd (b - a - BitVec.ofNat 32 (1 - carryNat s)) ∧
      ArithmeticFlags s t sf (b - a - BitVec.ofNat 32 (1 - carryNat s)) (decide (a.toNat + (1 - carryNat s) ≤ b.toNat))
        (decide (b.toInt - a.toInt - ((1 - carryNat s : Nat) : Int) ≠ (b - a - BitVec.ofNat 32 (1 - carryNat s)).toInt))

/-- 42_data_processing.md R172. Constructors tstImm, tstShiftImm, tstShiftReg. -/
def Obligations.TstSetsFlagsOfConjunction : Prop :=
  AluRule .tst fun s t sf _ a b sc =>
    WritesNoRegister s t ∧ LogicalFlags s t sf (a &&& b) sc

/-- 42_data_processing.md R173. Constructors teqImm, teqShiftImm, teqShiftReg. -/
def Obligations.TeqSetsNegativeAndZeroAlways : Prop :=
  AluRule .teq fun s t sf _ a b sc =>
    WritesNoRegister s t ∧
      t.flags = ⟨(a ^^^ b).getLsbD 31, decide (a ^^^ b = 0#32), if sf then sc else s.flags.c, s.flags.v⟩

/-- 42_data_processing.md R174. Constructors cmpImm, cmpShiftImm, cmpShiftReg. -/
def Obligations.CmpSetsFlagsOfDifference : Prop :=
  AluRule .cmp fun s t sf _ a b _ =>
    WritesNoRegister s t ∧
      ArithmeticFlags s t sf (a - b) (decide (b.toNat ≤ a.toNat))
        (decide (a.toInt - b.toInt ≠ (a - b).toInt))

/-- 42_data_processing.md R175. Constructors cmnImm, cmnShiftImm, cmnShiftReg. -/
def Obligations.CmnSetsFlagsOfSum : Prop :=
  AluRule .cmn fun s t sf _ a b _ =>
    WritesNoRegister s t ∧
      ArithmeticFlags s t sf (a + b) (decide (2 ^ 32 ≤ a.toNat + b.toNat))
        (decide (a.toInt + b.toInt ≠ (a + b).toInt))

/-- 42_data_processing.md R176. Constructors orrImm, orrShiftImm, orrShiftReg. -/
def Obligations.OrrWritesDisjunction : Prop :=
  AluRule .orr fun s t sf rd a b sc =>
    WritesResult s t rd (a ||| b) ∧ LogicalFlags s t sf (a ||| b) sc

/-- 42_data_processing.md R177. Constructors movImm, movShiftImm, movShiftReg. -/
def Obligations.MovWritesOperand2 : Prop :=
  AluRule .mov fun s t sf rd _ b sc =>
    WritesResult s t rd (b) ∧ LogicalFlags s t sf (b) sc

/-- 42_data_processing.md R178. Constructors bicImm, bicShiftImm, bicShiftReg. -/
def Obligations.BicClearsBits : Prop :=
  AluRule .bic fun s t sf rd a b sc =>
    WritesResult s t rd (a &&& ~~~b) ∧ LogicalFlags s t sf (a &&& ~~~b) sc

/-- 42_data_processing.md R179. Constructors mvnImm, mvnShiftImm, mvnShiftReg. -/
def Obligations.MvnWritesComplement : Prop :=
  AluRule .mvn fun s t sf rd _ b sc =>
    WritesResult s t rd (~~~b) ∧ LogicalFlags s t sf (~~~b) sc

/-- 43_branch.md R200, R202. Constructor b. That the result is a multiple of 4 is the spec's own derived sentence. -/
def Obligations.BranchJumps : Prop :=
  ∀ (c : Cond) (offset24 : BitVec 24) (s : State),
    (Passes c s.flags → ∃ t, exec (.b c offset24) s = .next t ∧ Jumps s t offset24 ∧
      (∀ j : Reg, j ≠ 15 → t.get j = s.get j) ∧ t.flags = s.flags ∧ SameRest s t ∧
      ((s.get 15).toNat % 4 = 0 → (t.get 15).toNat % 4 = 0)) ∧
    (¬ Passes c s.flags → OnlyAdvances (.b c offset24) s)

/-- 43_branch.md R201. Constructor bl. -/
def Obligations.BranchWithLinkJumpsAndLinks : Prop :=
  ∀ (c : Cond) (offset24 : BitVec 24) (s : State),
    (Passes c s.flags → ∃ t, exec (.bl c offset24) s = .next t ∧ Jumps s t offset24 ∧
      t.get 14 = s.get 15 + 4#32 ∧ (∀ j : Reg, j ≠ 14 → j ≠ 15 → t.get j = s.get j) ∧
      t.flags = s.flags ∧ SameRest s t) ∧
    (¬ Passes c s.flags → OnlyAdvances (.bl c offset24) s)

/-- 44_single_data_transfer.md R214. Constructor ldrReg. -/
def Obligations.LoadWritesEffectiveAddress : Prop :=
  ∀ (c : Cond) (b24 u b22 b21 : Bool) (rn rd : Reg) (amount : BitVec 5) (ty : ShiftType) (rm : Reg) (s : State),
    let i := Instr.ldrReg c b24 u b22 b21 rn rd amount ty rm
    let off := (shift ty amount.toNat (operandValue s rm) s.flags.c).value
    (Passes c s.flags → RrxReady s (.shiftImm amount ty rm) → ∃ t, exec i s = .next t ∧
      WritesResult s t rd (if u then operandValue s rn + off else operandValue s rn - off) ∧
      t.flags = s.flags ∧ SameRest s t) ∧
    (Passes c s.flags → ¬ RrxReady s (.shiftImm amount ty rm) → Raises i s .unimplemented) ∧
    (¬ Passes c s.flags → OnlyAdvances i s)

/-- 44_single_data_transfer.md R215, R216, R217: the only effect the spec gives these forms. Constructors ldrImm, ldrRegBit4, str. -/
def Obligations.TransfersWithoutHandlerRaiseUnimplemented : Prop :=
  ∀ (c : Cond) (i b24 u b22 b21 : Bool) (rn rd : Reg) (imm12 offset : BitVec 12) (offHi : BitVec 7)
    (offLo : BitVec 4) (s : State),
    (Passes c s.flags → Raises (.ldrImm c b24 u b22 b21 rn rd imm12) s .unimplemented ∧
      Raises (.ldrRegBit4 c b24 u b22 b21 rn rd offHi offLo) s .unimplemented ∧
      Raises (.str c i b24 u b22 b21 rn rd offset) s .unimplemented) ∧
    (¬ Passes c s.flags → OnlyAdvances (.ldrImm c b24 u b22 b21 rn rd imm12) s ∧
      OnlyAdvances (.ldrRegBit4 c b24 u b22 b21 rn rd offHi offLo) s ∧
      OnlyAdvances (.str c i b24 u b22 b21 rn rd offset) s)

/-- 44_single_data_transfer.md R218, whose sentence on the no-op is marked derived. Constructor pld. -/
def Obligations.PreloadOnlyAdvances : Prop :=
  ∀ (rest : BitVec 26) (s : State), OnlyAdvances (.pld rest) s

/-- Frame of the 36 constructors of the twelve operations with writesRd. -/
def Obligations.FrameOfWritingAluInstructions : Prop :=
  ∀ (k : AluOp) (c : Cond) (sf : Bool) (rn rd : Reg) (o : Operand2) (s t : State),
    k ∈ [AluOp.and, .eor, .sub, .rsb, .add, .adc, .sbc, .rsc, .orr, .mov, .bic, .mvn] →
    exec (.dataProcessing k c sf rn rd o) s = .next t →
    (∀ j : Reg, j ≠ rd → j ≠ 15 → t.get j = s.get j) ∧ (sf = false → t.flags = s.flags) ∧
    (isLogical k = true → t.flags.v = s.flags.v) ∧ (t.latch = s.latch ∨ t = { s with latch := some .unimplemented }) ∧
    t.cfg = s.cfg ∧ t.image.len = s.image.len ∧ ∀ a : Nat, t.image.read a = s.image.read a

/-- Frame of the twelve constructors of TST, TEQ, CMP, CMN. -/
def Obligations.FrameOfCompareInstructions : Prop :=
  ∀ (k : AluOp) (c : Cond) (sf : Bool) (rn rd : Reg) (o : Operand2) (s t : State),
    k ∈ [AluOp.tst, .teq, .cmp, .cmn] → exec (.dataProcessing k c sf rn rd o) s = .next t →
    (∀ j : Reg, j ≠ 15 → t.get j = s.get j) ∧ (sf = false → k ≠ .teq → t.flags = s.flags) ∧
    (sf = false → t.flags.c = s.flags.c ∧ t.flags.v = s.flags.v) ∧
    (isLogical k = true → t.flags.v = s.flags.v) ∧ (t.latch = s.latch ∨ t = { s with latch := some .unimplemented }) ∧
    t.cfg = s.cfg ∧ t.image.len = s.image.len ∧ ∀ a : Nat, t.image.read a = s.image.read a

/-- Frame of the constructors b and bl. -/
def Obligations.FrameOfBranches : Prop :=
  ∀ (c : Cond) (offset24 : BitVec 24) (s t : State),
    (exec (.b c offset24) s = .next t → ∀ j : Reg, j ≠ 15 → t.get j = s.get j) ∧
    (exec (.bl c offset24) s = .next t → ∀ j : Reg, j ≠ 14 → j ≠ 15 → t.get j = s.get j) ∧
    ((exec (.b c offset24) s = .next t ∨ exec (.bl c offset24) s = .next t) →
      t.flags = s.flags ∧ t.latch = s.latch ∧
      t.cfg = s.cfg ∧ t.image.len = s.image.len ∧ ∀ a : Nat, t.image.read a = s.image.read a)

/-- Frame of the constructors ldrReg, ldrRegBit4, ldrImm, str, pld: no memory is written (44_single_data_transfer.md R220). -/
def Obligations.FrameOfTransfers : Prop :=
  ∀ (c : Cond) (i b24 u b22 b21 : Bool) (rn rd rm : Reg) (amount : BitVec 5) (ty : ShiftType) (imm12 : BitVec 12)
    (offHi : BitVec 7) (offLo : BitVec 4) (rest : BitVec 26) (s t : State),
    (exec (.ldrReg c b24 u b22 b21 rn rd amount ty rm) s = .next t →
      ∀ j : Reg, j ≠ rd → j ≠ 15 → t.get j = s.get j) ∧
    (exec (.ldrRegBit4 c b24 u b22 b21 rn rd offHi offLo) s = .next t ∨
      exec (.ldrImm c b24 u b22 b21 rn rd imm12) s = .next t ∨
      exec (.str c i b24 u b22 b21 rn rd imm12) s = .next t ∨ exec (.pld rest) s = .next t →
      ∀ j : Reg, j ≠ 15 → t.get j = s.get j) ∧
    (exec (.ldrReg c b24 u b22 b21 rn rd amount ty rm) s = .next t ∨
      exec (.ldrRegBit4 c b24 u b22 b21 rn rd offHi offLo) s = .next t ∨
      exec (.ldrImm c b24 u b22 b21 rn rd imm12) s = .next t ∨
      exec (.str c i b24 u b22 b21 rn rd imm12) s = .next t ∨ exec (.pld rest) s = .next t →
      t.flags = s.flags ∧ (t.latch = s.latch ∨ t = { s with latch := some .unimplemented }) ∧
      t.cfg = s.cfg ∧ t.image.len = s.image.len ∧ ∀ a : Nat, t.image.read a = s.image.read a)

/-- 10_state.md R26: an instruction that does not write register 15, or whose condition fails, leaves X + 4; the wrap is of R22. -/
def Obligations.ProgramCounterAdvancesByFour : Prop :=
  ∀ (i : Instr) (s t : State), exec i s = .next t → s.latch = none → t.latch = none →
    (mayWrite i 15 = false ∨ ¬ Passes i.cond s.flags) → t.get 15 = s.get 15 + 4#32

/-- 10_state.md R23: which instructions write which registers (mayWrite of Safety.lean). -/
def Obligations.OnlyDestinationsChange : Prop :=
  ∀ (i : Instr) (s t : State) (j : Reg), exec i s = .next t → j ≠ 15 → t.get j ≠ s.get j →
    Passes i.cond s.flags ∧ mayWrite i j = true

/-- 10_state.md R30: what writes each flag. -/
def Obligations.OnlyFlagInstructionsChangeFlags : Prop :=
  ∀ (i : Instr) (s t : State), exec i s = .next t →
    (t.flags ≠ s.flags → Passes i.cond s.flags ∧ mayWriteFlags i = true) ∧
    (t.flags.c ≠ s.flags.c → ∃ d, i.dataProcessing? = some d ∧ d.setFlags = true) ∧
    (t.flags.v ≠ s.flags.v → ∃ d, i.dataProcessing? = some d ∧ d.setFlags = true ∧ isLogical d.op = false)

/-- 00_scope.md R5 with 42_data_processing.md R161: a whole-machine consequence. -/
def Obligations.DefaultCoreNeverWritesV : Prop :=
  ∀ s t : State, s.cfg = Config.default → step s = .next t → t.flags.v = s.flags.v

/-- 30_encoding.md R84; for the U, Rn, Rd and offset bits of ldrRegBit4, 44_single_data_transfer.md R210 and R216. -/
def Obligations.IgnoredBitsDoNotMatter : Prop :=
  (∀ (k : AluOp) (c : Cond) (sf : Bool) (rn rd rs rm : Reg) (x y : Bool) (ty : ShiftType) (s : State),
      exec (.dataProcessing k c sf rn rd (.shiftReg rs x ty rm)) s =
        exec (.dataProcessing k c sf rn rd (.shiftReg rs y ty rm)) s) ∧
    (∀ (c : Cond) (sf : Bool) (x y rd : Reg) (o : Operand2) (s : State),
      exec (.dataProcessing .mov c sf x rd o) s = exec (.dataProcessing .mov c sf y rd o) s ∧
      exec (.dataProcessing .mvn c sf x rd o) s = exec (.dataProcessing .mvn c sf y rd o) s) ∧
    (∀ (k : AluOp) (c : Cond) (sf : Bool) (rn x y : Reg) (o : Operand2) (s : State),
      k ∈ [AluOp.tst, .teq, .cmp, .cmn] →
      exec (.dataProcessing k c sf rn x o) s = exec (.dataProcessing k c sf rn y o) s) ∧
    (∀ (c : Cond) (x24 x22 x21 y24 y22 y21 u : Bool) (rn rd rm : Reg) (amount : BitVec 5) (ty : ShiftType) (s : State),
      exec (.ldrReg c x24 u x22 x21 rn rd amount ty rm) s = exec (.ldrReg c y24 u y22 y21 rn rd amount ty rm) s) ∧
    (∀ (c : Cond) (x24 xu x22 x21 y24 yu y22 y21 xi yi : Bool) (xn xd yn yd : Reg) (xo yo : BitVec 12)
      (xh yh : BitVec 7) (xl yl : BitVec 4) (xr yr : BitVec 26) (s : State),
      exec (.ldrImm c x24 xu x22 x21 xn xd xo) s = exec (.ldrImm c y24 yu y22 y21 yn yd yo) s ∧
      exec (.ldrRegBit4 c x24 xu x22 x21 xn xd xh xl) s = exec (.ldrRegBit4 c y24 yu y22 y21 yn yd yh yl) s ∧
      exec (.str c xi x24 xu x22 x21 xn xd xo) s = exec (.str c yi y24 yu y22 y21 yn yd yo) s ∧
      exec (.pld xr) s = exec (.pld yr) s)

/-- 43_branch.md R204 and 60_exceptions.md R234. -/
def Obligations.OnlyWritesOfRegister15BreakAlignment : Prop :=
  ∀ (i : Instr) (s t : State), exec i s = .next t → (s.get 15).toNat % 4 = 0 →
    (mayWrite i 15 = false ∨ (∃ c offset24, i = .b c offset24) ∨ (∃ c offset24, i = .bl c offset24)) →
    (t.get 15).toNat % 4 = 0

/-- 43_branch.md R205, whose sentence is marked derived. -/
def Obligations.ReturnThroughLinkSkipsOneInstruction : Prop :=
  ∀ (c c' : Cond) (offset24 : BitVec 24) (sf : Bool) (rn : Reg) (s t u : State), Passes c s.flags →
    exec (.bl c offset24) s = .next t → u.get 14 = t.get 14 → AluOp.mov ∈ u.cfg.aluHandlers → Passes c' u.flags →
    ∃ v, exec (.movShiftImm c' sf rn 15 0 .lsl 14) u = .next v ∧ v.get 15 = s.get 15 + 8#32

/-- 42_data_processing.md R174, whose sentence is marked derived. -/
def Obligations.CompareThenConditionsCompare : Prop :=
  ∀ (c : Cond) (rn rd : Reg) (o : Operand2) (s t : State), Passes c s.flags → AluOp.cmp ∈ s.cfg.aluHandlers →
    RrxReady s o → exec (.dataProcessing .cmp c true rn rd o) s = .next t →
    let a := operandValue s rn
    let b := (operand2Of s o).value
    (Passes .eq t.flags ↔ a = b) ∧ (Passes .cs t.flags ↔ b.toNat ≤ a.toNat) ∧
    (Passes .hi t.flags ↔ b.toNat < a.toNat) ∧ (Passes .ge t.flags ↔ b.toInt ≤ a.toInt) ∧
    (Passes .gt t.flags ↔ b.toInt < a.toInt)

/-- 41_barrel_shifter.md R131, R135; the amounts of 32 and more are R139. -/
def Obligations.LslMultiplies : Prop :=
  ∀ (n : Nat) (v : Word) (cin : Bool),
    (n = 0 → shift .lsl n v cin = ⟨v, cin⟩) ∧
    (1 ≤ n → (shift .lsl n v cin).value.toNat = v.toNat * 2 ^ n % 2 ^ 32 ∧
      (shift .lsl n v cin).carry = decide (v.toNat * 2 ^ n / 2 ^ 32 % 2 = 1))

/-- 41_barrel_shifter.md R132, R136; the amounts of 32 and more are R139. -/
def Obligations.LsrDivides : Prop :=
  ∀ (n : Nat) (v : Word) (cin : Bool),
    (n = 0 → shift .lsr n v cin = ⟨0#32, v.getLsbD 31⟩) ∧
    (1 ≤ n → (shift .lsr n v cin).value.toNat = v.toNat / 2 ^ n ∧
      (shift .lsr n v cin).carry = decide (v.toNat / 2 ^ (n - 1) % 2 = 1))

/-- 41_barrel_shifter.md R133, R137; the amounts of 32 and more are R139. -/
def Obligations.AsrDividesSigned : Prop :=
  ∀ (n : Nat) (v : Word) (cin : Bool),
    (n = 0 → shift .asr n v cin = ⟨if v.getLsbD 31 then 0xFFFFFFFF#32 else 0#32, v.getLsbD 31⟩) ∧
    (1 ≤ n → (shift .asr n v cin).value.toInt = v.toInt / 2 ^ n ∧
      (shift .asr n v cin).carry = decide (v.toInt / 2 ^ (n - 1) % 2 = 1))

/-- 41_barrel_shifter.md R134; the amounts of 32 and more are R139. -/
def Obligations.RorRotates : Prop :=
  ∀ (n : Nat) (v : Word) (cin : Bool), 1 ≤ n →
    (∀ i : Nat, i < 32 → (shift .ror n v cin).value.getLsbD i = v.getLsbD ((i + n) % 32)) ∧
    (shift .ror n v cin).carry = (shift .ror n v cin).value.getLsbD 31

/-- 41_barrel_shifter.md R139. -/
def Obligations.LargeShiftAmounts : Prop :=
  ∀ (n : Nat) (v : Word) (cin : Bool), n ≤ 255 →
    (n = 32 → shift .lsl n v cin = ⟨0#32, v.getLsbD 0⟩ ∧ shift .lsr n v cin = ⟨0#32, v.getLsbD 31⟩ ∧
      shift .ror n v cin = ⟨v, v.getLsbD 31⟩) ∧
    (32 ≤ n → shift .asr n v cin = ⟨if v.getLsbD 31 then 0xFFFFFFFF#32 else 0#32, v.getLsbD 31⟩) ∧
    (33 ≤ n → shift .lsl n v cin = ⟨0#32, false⟩ ∧ shift .lsr n v cin = ⟨0#32, false⟩ ∧
      (n % 32 = 0 → shift .ror n v cin = ⟨v, v.getLsbD 31⟩) ∧
      (n % 32 ≠ 0 → shift .ror n v cin = shift .ror (n % 32) v cin))

/-- 41_barrel_shifter.md R138 and 90_conflicts.md C1. -/
def Obligations.RotateByZeroIsRrxOrUnimplemented : Prop :=
  (∀ (k : AluOp) (c : Cond) (sf : Bool) (rn rd rs rm : Reg) (bit7 b24 u b22 b21 : Bool) (s : State),
      s.cfg.rrxImplemented = false → Passes c s.flags →
      Raises (.dataProcessing k c sf rn rd (.shiftImm 0#5 .ror rm)) s .unimplemented ∧
      (registerAmount s rs = 0 → Raises (.dataProcessing k c sf rn rd (.shiftReg rs bit7 .ror rm)) s .unimplemented) ∧
      Raises (.ldrReg c b24 u b22 b21 rn rd 0#5 .ror rm) s .unimplemented) ∧
    (∀ (v : Word) (cin : Bool), (shift .ror 0 v cin).value.toNat = cin.toNat * 2 ^ 31 + v.toNat / 2 ∧
      (shift .ror 0 v cin).carry = v.getLsbD 0) ∧
    (∀ (c : Cond) (rn rd rm : Reg) (s : State), s.cfg.rrxImplemented = true → Passes c s.flags →
      AluOp.mov ∈ s.cfg.aluHandlers → rd ≠ 15 →
      ∃ t, exec (.movShiftImm c false rn rd 0#5 .ror rm) s = .next t ∧
        (t.get rd).toNat = s.flags.c.toNat * 2 ^ 31 + (operandValue s rm).toNat / 2)
end

