-- ==== Sys2Proof/Laws/Encoding.lean ====
section
/-! SUPPORT. The small laws of the encoding: the numberings read back, and the bits of a placed field. -/

namespace Sys2Proof

@[simp] theorem Cond.toBits_ofBits (v : BitVec 4) : (Cond.ofBits v).toBits = v := by
  revert v; decide

@[simp] theorem Cond.ofBits_toBits (c : Cond) : Cond.ofBits c.toBits = c := by
  cases c <;> rfl

@[simp] theorem ShiftType.toBits_ofBits (v : BitVec 2) : (ShiftType.ofBits v).toBits = v := by
  revert v; decide

@[simp] theorem ShiftType.ofBits_toBits (t : ShiftType) : ShiftType.ofBits t.toBits = t := by
  cases t <;> rfl

@[simp] theorem AluOp.toBits_ofBits (v : BitVec 4) : (AluOp.ofBits v).toBits = v := by
  revert v; decide

@[simp] theorem AluOp.ofBits_toBits (k : AluOp) : AluOp.ofBits k.toBits = k := by
  cases k <;> rfl

@[simp] theorem regToBits_regOfBits (v : BitVec 4) : regToBits (regOfBits v) = v := rfl

@[simp] theorem regOfBits_regToBits (r : Reg) : regOfBits (regToBits r) = r := rfl

/-- Bit `i` of a field placed at `lo`. -/
@[simp] theorem getLsbD_place {n : Nat} (lo : Nat) (v : BitVec n) (i : Nat) :
    (place lo v).getLsbD i = (decide (i < 32) && !decide (i < lo) && v.getLsbD (i - lo)) := by
  by_cases h : i < 32
  · simp [place, h]
  · simp [place, h]

/-- Bit `i` of a field of a word. -/
@[simp] theorem getLsbD_field (w : Word) (lo n i : Nat) :
    (field w lo n).getLsbD i = (decide (i < n) && w.getLsbD (lo + i)) := by
  simp [field]

/-- The same for the bits read by index. -/
@[simp] theorem getElem_place {n : Nat} (lo : Nat) (v : BitVec n) (i : Nat) (h : i < 32) :
    (place lo v)[i] = (!decide (i < lo) && v.getLsbD (i - lo)) := by
  rw [← BitVec.getLsbD_eq_getElem, getLsbD_place]
  simp [h]

@[simp] theorem getElem_field (w : Word) (lo n i : Nat) (h : i < n) :
    (field w lo n)[i] = w.getLsbD (lo + i) := by
  rw [← BitVec.getLsbD_eq_getElem, getLsbD_field]
  simp [h]

/-- The bits an immediate data-processing opcode fixes (30_encoding.md R74, R75). -/
theorem fixed_dataProcessing_imm (k : AluOp) (c : Cond) (sf : Bool) (rn rd : Reg) (rotate : BitVec 4)
    (imm8 : BitVec 8) :
    encodeDataProcessing k c sf rn rd (.imm rotate imm8) &&& 0x0FE00000#32 = 0x02000000#32 ||| place 21 k.toBits := by
  apply BitVec.eq_of_getLsbD_eq
  intro n hn
  interval_cases n <;> simp [encodeDataProcessing, encodeOperand2, Operand2.isImm]

/-- The bits a data-processing opcode with a shift by immediate fixes (30_encoding.md R74, R76). -/
theorem fixed_dataProcessing_shiftImm (k : AluOp) (c : Cond) (sf : Bool) (rn rd : Reg) (amount : BitVec 5)
    (ty : ShiftType) (rm : Reg) :
    encodeDataProcessing k c sf rn rd (.shiftImm amount ty rm) &&& 0x0FE00010#32 = place 21 k.toBits := by
  apply BitVec.eq_of_getLsbD_eq
  intro n hn
  interval_cases n <;> simp [encodeDataProcessing, encodeOperand2, encodeShiftedReg, Operand2.isImm]

/-- The bits a data-processing opcode with a shift by register fixes (30_encoding.md R74, R77). -/
theorem fixed_dataProcessing_shiftReg (k : AluOp) (c : Cond) (sf : Bool) (rn rd rs : Reg) (bit7 : Bool)
    (ty : ShiftType) (rm : Reg) :
    encodeDataProcessing k c sf rn rd (.shiftReg rs bit7 ty rm) &&& 0x0FE00010#32 =
      0x00000010#32 ||| place 21 k.toBits := by
  apply BitVec.eq_of_getLsbD_eq
  intro n hn
  interval_cases n <;> simp [encodeDataProcessing, encodeOperand2, Operand2.isImm]

/-- The bits a branch opcode fixes (30_encoding.md R73). -/
theorem fixed_branch (c : Cond) (l : Bool) (offset24 : BitVec 24) :
    encodeBranch c l offset24 &&& 0x0F000000#32 = 0x0A000000#32 ||| place 24 (BitVec.ofBool l) := by
  apply BitVec.eq_of_getLsbD_eq
  intro n hn
  interval_cases n <;> simp [encodeBranch]

/-- The condition field of a data transfer is not that of a preload (30_encoding.md R81). -/
theorem transfer_not_preload {c : Cond} (h : c ≠ .nv) (i b24 u b22 b21 l : Bool) (rn rd : Reg) (offset : Word)
    (ho : offset &&& 0xF0000000#32 = 0#32) :
    encodeTransfer c i b24 u b22 b21 l rn rd offset &&& 0xF0000000#32 ≠ 0xF0000000#32 := by
  have e : encodeTransfer c i b24 u b22 b21 l rn rd offset &&& 0xF0000000#32 = place 28 c.toBits := by
    have h0 : ∀ n, n < 32 → 28 ≤ n → offset.getLsbD n = false := by
      intro n hn hn2
      have := congrArg (fun v : Word => v.getLsbD n) ho
      interval_cases n <;> simpa using this
    apply BitVec.eq_of_getLsbD_eq
    intro n hn
    have := h0 n hn
    interval_cases n <;> simp_all [encodeTransfer]
  rw [e]
  cases c <;> first | exact absurd rfl h | decide

end Sys2Proof
end

