-- ==== Sys2Proof/Laws/State.lean ====
section
/-! SUPPORT. One lemma per field per update of the state, and the register file's read after write. -/

namespace Sys2Proof.Machine

variable (s : State) (i j : Reg) (v : Word) (f : Flags) (k : FaultKind)

@[simp] theorem get_set_same : (s.set i v).get i = v := by
  simp [State.set, State.get]

@[simp] theorem get_set_ne (h : j ≠ i) : (s.set i v).get j = s.get j := by
  have : (i : Nat) ≠ j := fun e => h (Fin.ext e.symm)
  simp [State.set, State.get, this]

theorem get_set : (s.set i v).get j = if j = i then v else s.get j := by
  by_cases h : j = i
  · subst h; simp
  · simp [h]

@[simp] theorem set_flags : (s.set i v).flags = s.flags := rfl
@[simp] theorem set_latch : (s.set i v).latch = s.latch := rfl
@[simp] theorem set_image : (s.set i v).image = s.image := rfl
@[simp] theorem set_cfg : (s.set i v).cfg = s.cfg := rfl

@[simp] theorem setFlags_flags : (s.setFlags f).flags = f := rfl
@[simp] theorem setFlags_get : (s.setFlags f).get i = s.get i := rfl
@[simp] theorem setFlags_latch : (s.setFlags f).latch = s.latch := rfl
@[simp] theorem setFlags_image : (s.setFlags f).image = s.image := rfl
@[simp] theorem setFlags_cfg : (s.setFlags f).cfg = s.cfg := rfl

@[simp] theorem raise_get : (s.raise k).get i = s.get i := rfl
@[simp] theorem raise_flags : (s.raise k).flags = s.flags := rfl
@[simp] theorem raise_latch : (s.raise k).latch = some k := rfl
@[simp] theorem raise_image : (s.raise k).image = s.image := rfl
@[simp] theorem raise_cfg : (s.raise k).cfg = s.cfg := rfl

@[simp] theorem advance_pc : s.advance.get 15 = s.get 15 + 4#32 := by simp [State.advance]
@[simp] theorem advance_get (h : j ≠ 15) : s.advance.get j = s.get j := by simp [State.advance, h]
@[simp] theorem advance_flags : s.advance.flags = s.flags := rfl
@[simp] theorem advance_latch : s.advance.latch = s.latch := rfl
@[simp] theorem advance_image : s.advance.image = s.image := rfl
@[simp] theorem advance_cfg : s.advance.cfg = s.cfg := rfl

/-- Two states are equal when every register and every other field agree. -/
theorem state_ext {s t : State} (hr : ∀ j, s.get j = t.get j) (hf : s.flags = t.flags) (hl : s.latch = t.latch)
    (hi : s.image = t.image) (hc : s.cfg = t.cfg) : s = t := by
  obtain ⟨sr, sf, sl, si, sc⟩ := s
  obtain ⟨tr, tf, tl, ti, tc⟩ := t
  obtain rfl : sf = tf := hf
  obtain rfl : sl = tl := hl
  obtain rfl : si = ti := hi
  obtain rfl : sc = tc := hc
  congr 1
  apply Vector.ext
  intro n hn
  have := hr ⟨n, hn⟩
  simpa [State.get] using this

end Sys2Proof.Machine
end

