-- ==== Sys2Proof/Laws/Exec.lean ====
section
/-! SUPPORT. Everything a meaning, exec and a step can do, said once: later proofs cite these lemmas instead of
unfolding the machine. -/

namespace Sys2Proof.Machine

/-- A data-processing constructor, whichever of the 48 it is, runs `dataProcessing` on its fields. -/
theorem exec_dataProcessing (k : AluOp) (c : Cond) (sf : Bool) (rn rd : Reg) (o : Operand2) (s : State) :
    exec (.dataProcessing k c sf rn rd o) s = dataProcessing k c sf rn rd o s := by
  cases k <;> cases o <;> rfl

/-- The fields of a data-processing constructor. -/
@[simp] theorem dataProcessing?_dataProcessing (k : AluOp) (c : Cond) (sf : Bool) (rn rd : Reg) (o : Operand2) :
    (Instr.dataProcessing k c sf rn rd o).dataProcessing? = some ⟨k, c, sf, rn, rd, o⟩ := by
  cases k <;> cases o <;> rfl

/-- An instruction with data-processing fields is the constructor of those fields. -/
theorem eq_dataProcessing {i : Instr} {d : DataProcessing} (h : i.dataProcessing? = some d) :
    i = .dataProcessing d.op d.cond d.setFlags d.rn d.rd d.op2 := by
  cases i <;> simp only [Instr.dataProcessing?, Option.some.injEq, reduceCtorEq] at h <;> subst h <;> rfl

/-- The condition of a data-processing constructor. -/
@[simp] theorem cond_dataProcessing (k : AluOp) (c : Cond) (sf : Bool) (rn rd : Reg) (o : Operand2) :
    (Instr.dataProcessing k c sf rn rd o).cond = c := by
  cases k <;> cases o <;> rfl

/-- A data-processing constructor is not undecodable. -/
@[simp] theorem isUndecodable_dataProcessing (k : AluOp) (c : Cond) (sf : Bool) (rn rd : Reg) (o : Operand2) :
    isUndecodable (.dataProcessing k c sf rn rd o) = false := by
  cases k <;> cases o <;> rfl

/-- A failed condition leaves only the Advance. -/
theorem conditional_fails {c : Cond} {s : State} (h : canExecute c s.flags = false)
    (handler : State → Except FaultKind State) : conditional c handler s = .next s.advance := by
  simp [conditional, h]

/-- A passed condition runs the handler. -/
theorem conditional_passes {c : Cond} {s : State} (h : canExecute c s.flags = true)
    (handler : State → Except FaultKind State) : conditional c handler s = finish s (handler s) := by
  simp [conditional, h]

/-- The shifter raises exactly on a rotation by 0 without RRX. -/
theorem operand2_missing {s : State} {o : Operand2} (h : operandMissing s o = true) :
    operand2 s o = .error .unimplemented := by
  cases o <;> simp_all [operandMissing, operand2, operandShiftImm, operandShiftReg, shiftedReg]

/-- Otherwise operand 2 has a value. -/
theorem operand2_present {s : State} {o : Operand2} (h : operandMissing s o = false) :
    ∃ b, operand2 s o = .ok b := by
  cases o <;> simp_all [operandMissing, operand2, operandShiftImm, operandShiftReg, shiftedReg]

/-- The handler of a data-processing instruction that has no execution raises Unimplemented. -/
theorem aluHandler_raises {k : AluOp} {o : Operand2} {s : State}
    (h : k ∉ s.cfg.aluHandlers ∨ operandMissing s o = true) (sf : Bool) (rn rd : Reg) :
    aluHandler k sf rn rd o s = .error .unimplemented := by
  by_cases hm : operandMissing s o = true
  · simp [aluHandler, operand2_missing hm]
  · obtain ⟨b, hb⟩ := operand2_present (by simpa using hm)
    have hk : k ∉ s.cfg.aluHandlers := h.resolve_right hm
    simp [aluHandler, hb, hk]

/-- The handler of a data-processing instruction that executes commits its result. -/
theorem aluHandler_commits {k : AluOp} {o : Operand2} {s : State} {b : ShiftOut} (hk : k ∈ s.cfg.aluHandlers)
    (hb : operand2 s o = .ok b) (sf : Bool) (rn rd : Reg) :
    aluHandler k sf rn rd o s =
      .ok (commitAlu k sf rd (aluCompute k (s.regRead rn) b.value s.flags.c) b.carry s) := by
  simp [aluHandler, hb, hk]

/-- The fetch is admitted exactly at an aligned R[15] inside the image, and then reads the word there. -/
theorem fetch_admitted {s : State} (ha : s.pc.toNat % 4 = 0) (hb : s.pc.toNat + 4 ≤ s.image.len) :
    fetch s = .ok (codeRead32 s.image s.pc.toNat) := by
  simp [fetch, ha, Nat.not_lt.2 hb]

/-- The port code_rdata shows the word of an admitted fetch. -/
theorem codeRdata_admitted {s : State} {w : Word} (h : fetch s = .ok w) : codeRdata s = w := by
  simp [codeRdata, h]

/-- What an instruction that executes does before the Advance. -/
inductive Effect : Instr → State → State → Prop where
  | alu {i : Instr} {d : DataProcessing} {s : State} {b : ShiftOut} (hd : i.dataProcessing? = some d)
      (hk : d.op ∈ s.cfg.aluHandlers) (hb : operand2 s d.op2 = .ok b) :
      Effect i s (commitAlu d.op d.setFlags d.rd (aluCompute d.op (s.regRead d.rn) b.value s.flags.c) b.carry s)
  | branch {c : Cond} {offset24 : BitVec 24} {s : State} :
      Effect (.b c offset24) s (s.set 15 (branchTarget s offset24))
  | link {c : Cond} {offset24 : BitVec 24} {s : State} :
      Effect (.bl c offset24) s ((s.set 14 (s.pc + 4#32)).set 15 (branchTarget s offset24))
  | load {c : Cond} {b24 u b22 b21 : Bool} {rn rd : Reg} {amount : BitVec 5} {ty : ShiftType} {rm : Reg} {s : State}
      {off : ShiftOut} (h : shiftedReg s ty amount.toNat rm = .ok off) :
      Effect (.ldrReg c b24 u b22 b21 rn rd amount ty rm) s
        (s.set rd (effectiveAddress u (s.regRead rn) off.value))

/-- Everything exec can do: an undecodable opcode faults; a failed condition only advances; an instruction on the list
of 30_encoding.md R83 raises Unimplemented; any other has its effect and then advances. -/
theorem exec_cases (i : Instr) (s : State) :
    (isUndecodable i = true ∧ exec i s = .next (s.raise .undecodable)) ∨
    (isUndecodable i = false ∧ canExecute i.cond s.flags = false ∧ exec i s = .next s.advance) ∨
    (isUndecodable i = false ∧ canExecute i.cond s.flags = true ∧ lacksHandler i s = true ∧
      exec i s = .next (s.raise .unimplemented)) ∨
    (isUndecodable i = false ∧ canExecute i.cond s.flags = true ∧ lacksHandler i s = false ∧
      ∃ t, Effect i s t ∧ exec i s = .next t.advance) := by
  rcases hd : i.dataProcessing? with _ | d
  · cases hc : canExecute i.cond s.flags
    · cases i <;> simp only [Instr.dataProcessing?, reduceCtorEq] at hd <;>
        simp_all [isUndecodable, exec, execB, execBl, execLdrReg, execLdrRegBit4, execLdrImm, execStr, execPld,
          execUndecodable100, execUndecodable110, execUndecodable111, conditional, Instr.cond]
    · cases i <;> simp only [Instr.dataProcessing?, reduceCtorEq] at hd
      case b c offset24 =>
        refine .inr (.inr (.inr ⟨rfl, rfl, rfl, _, .branch, ?_⟩))
        exact conditional_passes hc _
      case bl c offset24 =>
        refine .inr (.inr (.inr ⟨rfl, rfl, rfl, _, .link, ?_⟩))
        exact conditional_passes hc _
      case ldrReg c b24 u b22 b21 rn rd amount ty rm =>
        have he : exec (.ldrReg c b24 u b22 b21 rn rd amount ty rm) s = finish s (loadHandler u rn rd amount ty rm s) :=
          conditional_passes hc _
        cases hm : rorZeroMissing s.cfg ty amount.toNat
        · have hs : shiftedReg s ty amount.toNat rm = .ok (shift ty amount.toNat (s.regRead rm) s.flags.c) := by
            simp [shiftedReg, hm]
          refine .inr (.inr (.inr ⟨rfl, rfl, hm, _, .load hs, ?_⟩))
          rw [he, loadHandler, hs]
          rfl
        · refine .inr (.inr (.inl ⟨rfl, rfl, hm, ?_⟩))
          rw [he, loadHandler]
          simp [shiftedReg, hm, finish]
      case ldrRegBit4 => exact .inr (.inr (.inl ⟨rfl, rfl, rfl, conditional_passes hc _⟩))
      case ldrImm => exact .inr (.inr (.inl ⟨rfl, rfl, rfl, conditional_passes hc _⟩))
      case str => exact .inr (.inr (.inl ⟨rfl, rfl, rfl, conditional_passes hc _⟩))
      case pld => exact absurd hc (by simp [Instr.cond, canExecute])
      all_goals exact .inl ⟨rfl, rfl⟩
  · obtain ⟨k, c, sf, rn, rd, o⟩ := d
    obtain rfl := eq_dataProcessing hd
    have hu := isUndecodable_dataProcessing k c sf rn rd o
    simp only [exec_dataProcessing, cond_dataProcessing]
    have hl : lacksHandler (.dataProcessing k c sf rn rd o) s =
        (decide (k ∉ s.cfg.aluHandlers) || operandMissing s o) := by
      simp [lacksHandler, hd]
    cases hc : canExecute c s.flags
    · exact .inr (.inl ⟨hu, rfl, conditional_fails hc _⟩)
    · by_cases hr : k ∉ s.cfg.aluHandlers ∨ operandMissing s o = true
      · refine .inr (.inr (.inl ⟨hu, rfl, by simpa [hl] using hr, ?_⟩))
        rw [dataProcessing, conditional_passes hc, aluHandler_raises hr]
        rfl
      · obtain ⟨hk, hm⟩ := not_or.1 hr
        obtain ⟨b, hb⟩ := operand2_present (by simpa using hm)
        refine .inr (.inr (.inr ⟨hu, rfl, ?_, _, .alu hd (not_not.1 hk) hb, ?_⟩))
        · rw [hl]; simp at hk hm; simp [hk, hm]
        · rw [dataProcessing, conditional_passes hc, aluHandler_commits (not_not.1 hk) hb]
          rfl

/-- exec always answers a next state. -/
theorem exec_answers (i : Instr) (s : State) : ∃ t, exec i s = .next t := by
  rcases exec_cases i s with ⟨-, h⟩ | ⟨-, -, h⟩ | ⟨-, -, -, h⟩ | ⟨-, -, -, t, -, h⟩ <;> exact ⟨_, h⟩

/-- The commit of a data-processing instruction keeps the latch, the image and the parameters. -/
theorem commitAlu_rest (k : AluOp) (sf : Bool) (rd : Reg) (out : AluOut) (sc : Bool) (s : State) :
    (commitAlu k sf rd out sc s).latch = s.latch ∧ (commitAlu k sf rd out sc s).image = s.image ∧
      (commitAlu k sf rd out sc s).cfg = s.cfg := by
  cases h : writesRd k <;> simp [commitAlu, h]

/-- The flags a data-processing instruction leaves. -/
@[simp] theorem commitAlu_flags (k : AluOp) (sf : Bool) (rd : Reg) (out : AluOut) (sc : Bool) (s : State) :
    (commitAlu k sf rd out sc s).flags = flagsAfter k sf out sc s.flags := by
  cases h : writesRd k <;> simp [commitAlu, h]

/-- The registers a data-processing instruction leaves. -/
theorem commitAlu_get (k : AluOp) (sf : Bool) (rd : Reg) (out : AluOut) (sc : Bool) (s : State) (j : Reg) :
    (commitAlu k sf rd out sc s).get j = if writesRd k = true ∧ j = rd then out.value else s.get j := by
  cases h : writesRd k <;> simp [commitAlu, h, get_set]

/-- An effect keeps the latch, the image and the parameters. -/
theorem Effect.rest {i : Instr} {s t : State} (h : Effect i s t) :
    t.latch = s.latch ∧ t.image = s.image ∧ t.cfg = s.cfg := by
  cases h with
  | alu => exact commitAlu_rest ..
  | branch | link | load => exact ⟨rfl, rfl, rfl⟩

/-- Everything a step can do: refuse the configuration, keep a halted core, raise a fetch fault, or run the decoded
instruction. -/
theorem step_cases (s : State) :
    (2 ^ 32 < s.image.len ∧ step s = .refused .codeLenAboveLimit) ∨
    (s.image.len ≤ 2 ^ 32 ∧ (∃ f, s.latch = some f) ∧ step s = .next s) ∨
    (s.image.len ≤ 2 ^ 32 ∧ s.latch = none ∧ s.pc.toNat % 4 ≠ 0 ∧ step s = .next (s.raise .misalignedFetch)) ∨
    (s.image.len ≤ 2 ^ 32 ∧ s.latch = none ∧ s.pc.toNat % 4 = 0 ∧ s.image.len < s.pc.toNat + 4 ∧
      step s = .next (s.raise .fetchOutOfBounds)) ∨
    (s.image.len ≤ 2 ^ 32 ∧ s.latch = none ∧ s.pc.toNat % 4 = 0 ∧ s.pc.toNat + 4 ≤ s.image.len ∧
      step s = exec (decode (opcodeAtPc s)) s) := by
  by_cases hlen : s.image.len ≤ 2 ^ 32
  · have hok : codeLenOk s = true := by simpa [codeLenOk] using hlen
    rcases hl : s.latch with _ | f
    · by_cases ha : s.pc.toNat % 4 = 0
      · by_cases hb : s.image.len < s.pc.toNat + 4
        · refine .inr (.inr (.inr (.inl ⟨hlen, rfl, ha, hb, ?_⟩)))
          simp [step, hok, hl, fetch, ha, hb]
        · refine .inr (.inr (.inr (.inr ⟨hlen, rfl, ha, by omega, ?_⟩)))
          simp [step, hok, hl, fetch, ha, hb, opcodeAtPc]
      · refine .inr (.inr (.inl ⟨hlen, rfl, ha, ?_⟩))
        simp [step, hok, hl, fetch, ha]
    · refine .inr (.inl ⟨hlen, ⟨f, rfl⟩, ?_⟩)
      simp [step, hok, hl]
  · have hok : codeLenOk s = false := by simpa [codeLenOk] using hlen
    exact .inl ⟨by omega, by simp [step, hok]⟩

end Sys2Proof.Machine
end

