-- ==== Sys2Proof/Laws/Flags.lean ====
section
/-! SUPPORT. What the adder gives for a sum and for a difference, with and without the carry: the value, the carry and
the overflow as the exact comparisons. -/

namespace Sys2Proof.Machine

/-- The complement of a word as a number. -/
theorem toNat_complement (b : Word) : (~~~b).toNat = 2 ^ 32 - 1 - b.toNat := BitVec.toNat_not

/-- The complement of a word read as signed. -/
theorem toInt_complement (b : Word) : (~~~b).toInt = -b.toInt - 1 := by
  have h1 := toNat_complement b
  have h2 := b.isLt
  rw [BitVec.toInt_eq_toNat_cond, BitVec.toInt_eq_toNat_cond, h1]
  split <;> split <;> omega

/-- The adder on a sum with carry-in (42_data_processing.md R162, R169). -/
theorem addWithCarry_adc (a b : Word) (c : Bool) :
    addWithCarry a b c = ⟨a + b + BitVec.ofNat 32 c.toNat, .arithmetic (decide (2 ^ 32 ≤ a.toNat + b.toNat + c.toNat))
      (decide (a.toInt + b.toInt + c.toNat ≠ (a + b + BitVec.ofNat 32 c.toNat).toInt))⟩ := by
  have hv : BitVec.ofNat 32 (a.toNat + b.toNat + c.toNat) = a + b + BitVec.ofNat 32 c.toNat := by
    apply BitVec.eq_of_toNat_eq
    cases c <;> simp [BitVec.toNat_add]
  simp only [addWithCarry, hv]

/-- The adder on a sum (42_data_processing.md R162, R168). -/
theorem addWithCarry_add (a b : Word) :
    addWithCarry a b false = ⟨a + b, .arithmetic (decide (2 ^ 32 ≤ a.toNat + b.toNat))
      (decide (a.toInt + b.toInt ≠ (a + b).toInt))⟩ := by
  have := addWithCarry_adc a b false
  simpa using this

/-- The adder on a difference less the complement of the carry-in (42_data_processing.md R162, R170). -/
theorem addWithCarry_sbc (a b : Word) (c : Bool) :
    addWithCarry a (~~~b) c = ⟨a - b - BitVec.ofNat 32 (1 - c.toNat),
      .arithmetic (decide (b.toNat + (1 - c.toNat) ≤ a.toNat))
        (decide (a.toInt - b.toInt - ((1 - c.toNat : Nat) : Int) ≠ (a - b - BitVec.ofNat 32 (1 - c.toNat)).toInt))⟩ := by
  have h1 := toNat_complement b
  have h2 := b.isLt
  have h3 := a.isLt
  have hv : a + ~~~b + BitVec.ofNat 32 c.toNat = a - b - BitVec.ofNat 32 (1 - c.toNat) := by
    apply BitVec.eq_of_toNat_eq
    cases c <;> simp [BitVec.toNat_add, BitVec.toNat_sub] <;> omega
  rw [addWithCarry_adc, hv, toInt_complement, h1]
  have hc : (2 ^ 32 ≤ a.toNat + (2 ^ 32 - 1 - b.toNat) + c.toNat) ↔ b.toNat + (1 - c.toNat) ≤ a.toNat := by
    cases c <;> simp <;> omega
  have hs : a.toInt + (-b.toInt - 1) + (c.toNat : Int) = a.toInt - b.toInt - ((1 - c.toNat : Nat) : Int) := by
    cases c <;> simp <;> omega
  rw [hs]
  simp only [hc]

/-- The adder on a difference (42_data_processing.md R162, R166). -/
theorem addWithCarry_sub (a b : Word) :
    addWithCarry a (~~~b) true = ⟨a - b, .arithmetic (decide (b.toNat ≤ a.toNat))
      (decide (a.toInt - b.toInt ≠ (a - b).toInt))⟩ := by
  have := addWithCarry_sbc a b true
  simpa using this

/-- The flags after an operation that is not an update: only TEQ writes N and Z (42_data_processing.md R161, R173). -/
theorem flagsAfter_keep {k : AluOp} (h : writesNzAlways k = false) (out : AluOut) (sc : Bool) (f : Flags) :
    flagsAfter k false out sc f = f := by
  simp [flagsAfter, h]

/-- The flags after a logical operation with S = 1 (42_data_processing.md R161). -/
theorem flagsAfter_logical (k : AluOp) (r : Word) (sc : Bool) (f : Flags) :
    flagsAfter k true ⟨r, .logical⟩ sc f = ⟨r.getLsbD 31, r == 0#32, sc, f.v⟩ := rfl

/-- The flags after an arithmetic operation with S = 1 (42_data_processing.md R162). -/
theorem flagsAfter_arithmetic (k : AluOp) (r : Word) (carry overflow sc : Bool) (f : Flags) :
    flagsAfter k true ⟨r, .arithmetic carry overflow⟩ sc f = ⟨r.getLsbD 31, r == 0#32, carry, overflow⟩ := rfl

end Sys2Proof.Machine
end

