-- ==== Sys2Proof/Laws/Memory.lean ====
section
/-! SUPPORT. The code image: read after write, and every operation keeps the canonical form. -/

namespace Sys2Proof.Machine

/-- What the cells read at an offset. -/
theorem read_eq (m : Memory) (a : Nat) :
    m.read a = match m.cells.find? (fun c => c.1 == a) with | some c => c.2 | none => 0#8 := rfl

/-- A list sorted above `a` finds nothing at `a`. -/
theorem find_none_of_lt {l : List Host.Cell} {a : Nat} (h : ∀ c ∈ l, a < c.1) :
    l.find? (fun c => c.1 == a) = none := by
  simp only [List.find?_eq_none, beq_iff_eq]
  intro c hc e
  have := h c hc
  omega

/-- Every cell of the rewritten list is an old cell at another offset, or the new byte. -/
theorem mem_writeCells {l : List Host.Cell} {a : Nat} {b : Byte} {x : Host.Cell}
    (h : x ∈ writeCells l a b) : x ∈ l ∨ (x = (a, b) ∧ b ≠ 0#8) := by
  induction l with
  | nil => simp only [writeCells] at h; split at h <;> simp_all
  | cons c rest ih =>
    simp only [writeCells] at h
    split at h
    · split at h <;> simp_all
      tauto
    · split at h
      · split at h <;> simp_all
        tauto
      · simp only [List.mem_cons] at h ⊢
        rcases h with h | h
        · exact .inl (.inl h)
        · rcases ih h with h | h
          · exact .inl (.inr h)
          · exact .inr h

/-- Rewriting a byte keeps the offsets rising. -/
theorem writeCells_sorted {l : List Host.Cell} (a : Nat) (b : Byte)
    (h : l.Pairwise (fun x y => x.1 < y.1)) : (writeCells l a b).Pairwise (fun x y => x.1 < y.1) := by
  induction l with
  | nil => simp only [writeCells]; split <;> simp
  | cons c rest ih =>
    obtain ⟨h1, h2⟩ := List.pairwise_cons.1 h
    simp only [writeCells]
    split
    · rename_i hlt
      split
      · exact h
      · refine List.pairwise_cons.2 ⟨?_, h⟩
        intro x hx
        rcases List.mem_cons.1 hx with rfl | hx
        · exact hlt
        · exact Nat.lt_trans hlt (h1 x hx)
    · split
      · rename_i _ heq
        split
        · exact h2
        · refine List.pairwise_cons.2 ⟨?_, h2⟩
          intro x hx
          have := h1 x hx
          omega
      · refine List.pairwise_cons.2 ⟨?_, ih h2⟩
        intro x hx
        rcases mem_writeCells hx with hx | ⟨rfl, -⟩
        · exact h1 x hx
        · show c.1 < a
          omega

/-- `write` keeps the canonical form. -/
theorem write_wf {m : Memory} (a : Nat) (b : Byte) (h : m.wf) : (m.write a b).wf := by
  unfold Memory.write
  split
  · rename_i ha
    refine ⟨writeCells_sorted a b h.1, ?_⟩
    intro c hc
    rcases mem_writeCells hc with hc | ⟨rfl, hb⟩
    · exact h.2 c hc
    · exact ⟨hb, ha⟩
  · exact h

/-- `extend` keeps the canonical form. -/
theorem extend_wf {m : Memory} (n : Nat) (h : m.wf) : (m.extend n).wf := by
  refine ⟨h.1, ?_⟩
  intro c hc
  obtain ⟨h1, h2⟩ := h.2 c hc
  exact ⟨h1, Nat.lt_of_lt_of_le h2 (Nat.le_max_left _ _)⟩

/-- `writeBytes` keeps the canonical form. -/
theorem writeBytes_wf (l : List Byte) {m : Memory} (a : Nat) (h : m.wf) : (m.writeBytes a l).wf := by
  induction l generalizing m a with
  | nil => exact h
  | cons b rest ih => exact ih (a + 1) (write_wf a b h)

/-- The empty image is in canonical form. -/
theorem empty_wf : Memory.wf ⟨0, []⟩ := by decide

/-- The image of a sequence of bytes is in canonical form. -/
theorem ofBytes_wf (l : List Byte) : (Memory.ofBytes l).wf := writeBytes_wf l 0 (extend_wf _ empty_wf)

/-- Reset's image is in canonical form. -/
theorem reset_image_wf : State.reset.image.wf := empty_wf

/-- Placing an opcode keeps the canonical form. -/
theorem withFetchWord_wf {s : State} (nbits w : Nat) (h : s.image.wf) : (s.withFetchWord nbits w).image.wf :=
  writeBytes_wf _ _ (extend_wf _ h)

/-- What the rewritten cells find at an offset. -/
theorem find_writeCells {l : List Host.Cell} (a : Nat) (b : Byte) (x : Nat)
    (h : l.Pairwise (fun p q => p.1 < q.1)) :
    (writeCells l a b).find? (fun c => c.1 == x) =
      if x = a then (if b = 0#8 then none else some (a, b)) else l.find? (fun c => c.1 == x) := by
  induction l with
  | nil =>
    simp only [writeCells]
    by_cases hb : b = 0#8
    · simp [hb]
    · by_cases hx : x = a
      · simp [hb, hx]
      · simp [hb, hx, Ne.symm hx]
  | cons c rest ih =>
    obtain ⟨h1, h2⟩ := List.pairwise_cons.1 h
    simp only [writeCells]
    split
    · rename_i hlt
      have hnone : (c :: rest).find? (fun p => p.1 == a) = none := by
        apply find_none_of_lt
        intro p hp
        rcases List.mem_cons.1 hp with rfl | hp
        · exact hlt
        · exact Nat.lt_trans hlt (h1 p hp)
      by_cases hb : b = 0#8
      · by_cases hx : x = a
        · subst hx; rw [if_pos hb, if_pos rfl, if_pos hb]; exact hnone
        · simp [hb, hx]
      · by_cases hx : x = a
        · subst hx; simp [hb]
        · simp [hb, hx, List.find?_cons, Ne.symm hx]
    · split
      · rename_i _ heq
        have hnone : rest.find? (fun p => p.1 == a) = none := by
          apply find_none_of_lt
          intro p hp
          have := h1 p hp
          omega
        by_cases hx : x = a
        · subst hx
          by_cases hb : b = 0#8
          · simp [hb, hnone]
          · simp [hb]
        · have hc : c.1 ≠ x := by omega
          by_cases hb : b = 0#8
          · simp [hb, hx, hc]
          · simp [hb, hx, hc, Ne.symm hx]
      · rename_i hlt hne
        by_cases hc : c.1 = x
        · have hx : x ≠ a := by omega
          simp [hc, hx]
        · simp [hc, ih h2]

/-- Read after write: the byte written at its offset inside the image, the old byte elsewhere. -/
theorem read_write {m : Memory} (a : Nat) (b : Byte) (x : Nat) (h : m.wf) (ha : a < m.len) :
    (m.write a b).read x = if x = a then b else m.read x := by
  rw [Memory.write, if_pos ha, read_eq, read_eq]
  simp only [find_writeCells a b x h.1]
  by_cases hx : x = a
  · by_cases hb : b = 0#8 <;> simp [hx, hb]
  · simp [hx]

/-- `write` does not change the length. -/
@[simp] theorem write_len (m : Memory) (a : Nat) (b : Byte) : (m.write a b).len = m.len := by
  unfold Memory.write; split <;> rfl

/-- `extend` does not change what is read. -/
@[simp] theorem extend_read (m : Memory) (n a : Nat) : (m.extend n).read a = m.read a := rfl

@[simp] theorem extend_len (m : Memory) (n : Nat) : (m.extend n).len = max m.len n := rfl

/-- `writeBytes` does not change the length. -/
@[simp] theorem writeBytes_len (l : List Byte) (m : Memory) (a : Nat) : (m.writeBytes a l).len = m.len := by
  induction l generalizing m a with
  | nil => rfl
  | cons b rest ih => simp [Memory.writeBytes, ih]

end Sys2Proof.Machine
end

