-- ==== Sys2Proof/Laws/PerInstr.lean ====
section
/-! SUPPORT. Laws that hold of every instruction as syntax, one lemma per constructor: the word of a well-formed
instruction selects its row of the opcode table (30_encoding.md R90). -/

namespace Sys2Proof.Laws.SelectsRow

/-- The word of `i`, when `i` is well-formed, selects the row of `i`. -/
def Statement (i : Instr) : Prop := i.wellFormed = true → i.row.selects (encode i) = true

/-- The row of an immediate data-processing opcode. -/
theorem selects_imm (k : AluOp) (c : Cond) (sf : Bool) (rn rd : Reg) (rotate : BitVec 4) (imm8 : BitVec 8) :
    OpcodeRow.selects ⟨0x02000000#32 ||| place 21 k.toBits, 0x0FE00000#32, false⟩
      (encodeDataProcessing k c sf rn rd (.imm rotate imm8)) = true := by
  simp [OpcodeRow.selects, fixed_dataProcessing_imm]

/-- The row of a data-processing opcode with a shift by immediate. -/
theorem selects_shiftImm (k : AluOp) (c : Cond) (sf : Bool) (rn rd : Reg) (amount : BitVec 5) (ty : ShiftType)
    (rm : Reg) :
    OpcodeRow.selects ⟨place 21 k.toBits, 0x0FE00010#32, false⟩
      (encodeDataProcessing k c sf rn rd (.shiftImm amount ty rm)) = true := by
  simp [OpcodeRow.selects, fixed_dataProcessing_shiftImm]

/-- The row of a data-processing opcode with a shift by register. -/
theorem selects_shiftReg (k : AluOp) (c : Cond) (sf : Bool) (rn rd rs : Reg) (bit7 : Bool) (ty : ShiftType)
    (rm : Reg) :
    OpcodeRow.selects ⟨0x00000010#32 ||| place 21 k.toBits, 0x0FE00010#32, false⟩
      (encodeDataProcessing k c sf rn rd (.shiftReg rs bit7 ty rm)) = true := by
  simp [OpcodeRow.selects, fixed_dataProcessing_shiftReg]

/-- The row of a branch opcode. -/
theorem selects_branch (c : Cond) (l : Bool) (offset24 : BitVec 24) :
    OpcodeRow.selects ⟨0x0A000000#32 ||| place 24 (BitVec.ofBool l), 0x0F000000#32, false⟩
      (encodeBranch c l offset24) = true := by
  simp [OpcodeRow.selects, fixed_branch]

theorem b (c : Cond) (offset24 : BitVec 24) : Statement (.b c offset24) :=
  fun _ => selects_branch c false offset24

theorem bl (c : Cond) (offset24 : BitVec 24) : Statement (.bl c offset24) :=
  fun _ => selects_branch c true offset24

theorem andImm (c : Cond) (sf : Bool) (rn rd : Reg) (rotate : BitVec 4) (imm8 : BitVec 8) :
    Statement (.andImm c sf rn rd rotate imm8) :=
  fun _ => selects_imm .and c sf rn rd rotate imm8

theorem andShiftImm (c : Cond) (sf : Bool) (rn rd : Reg) (amount : BitVec 5) (ty : ShiftType) (rm : Reg) :
    Statement (.andShiftImm c sf rn rd amount ty rm) :=
  fun _ => selects_shiftImm .and c sf rn rd amount ty rm

theorem andShiftReg (c : Cond) (sf : Bool) (rn rd : Reg) (rs : Reg) (bit7 : Bool) (ty : ShiftType) (rm : Reg) :
    Statement (.andShiftReg c sf rn rd rs bit7 ty rm) :=
  fun _ => selects_shiftReg .and c sf rn rd rs bit7 ty rm

theorem eorImm (c : Cond) (sf : Bool) (rn rd : Reg) (rotate : BitVec 4) (imm8 : BitVec 8) :
    Statement (.eorImm c sf rn rd rotate imm8) :=
  fun _ => selects_imm .eor c sf rn rd rotate imm8

theorem eorShiftImm (c : Cond) (sf : Bool) (rn rd : Reg) (amount : BitVec 5) (ty : ShiftType) (rm : Reg) :
    Statement (.eorShiftImm c sf rn rd amount ty rm) :=
  fun _ => selects_shiftImm .eor c sf rn rd amount ty rm

theorem eorShiftReg (c : Cond) (sf : Bool) (rn rd : Reg) (rs : Reg) (bit7 : Bool) (ty : ShiftType) (rm : Reg) :
    Statement (.eorShiftReg c sf rn rd rs bit7 ty rm) :=
  fun _ => selects_shiftReg .eor c sf rn rd rs bit7 ty rm

theorem subImm (c : Cond) (sf : Bool) (rn rd : Reg) (rotate : BitVec 4) (imm8 : BitVec 8) :
    Statement (.subImm c sf rn rd rotate imm8) :=
  fun _ => selects_imm .sub c sf rn rd rotate imm8

theorem subShiftImm (c : Cond) (sf : Bool) (rn rd : Reg) (amount : BitVec 5) (ty : ShiftType) (rm : Reg) :
    Statement (.subShiftImm c sf rn rd amount ty rm) :=
  fun _ => selects_shiftImm .sub c sf rn rd amount ty rm

theorem subShiftReg (c : Cond) (sf : Bool) (rn rd : Reg) (rs : Reg) (bit7 : Bool) (ty : ShiftType) (rm : Reg) :
    Statement (.subShiftReg c sf rn rd rs bit7 ty rm) :=
  fun _ => selects_shiftReg .sub c sf rn rd rs bit7 ty rm

theorem rsbImm (c : Cond) (sf : Bool) (rn rd : Reg) (rotate : BitVec 4) (imm8 : BitVec 8) :
    Statement (.rsbImm c sf rn rd rotate imm8) :=
  fun _ => selects_imm .rsb c sf rn rd rotate imm8

theorem rsbShiftImm (c : Cond) (sf : Bool) (rn rd : Reg) (amount : BitVec 5) (ty : ShiftType) (rm : Reg) :
    Statement (.rsbShiftImm c sf rn rd amount ty rm) :=
  fun _ => selects_shiftImm .rsb c sf rn rd amount ty rm

theorem rsbShiftReg (c : Cond) (sf : Bool) (rn rd : Reg) (rs : Reg) (bit7 : Bool) (ty : ShiftType) (rm : Reg) :
    Statement (.rsbShiftReg c sf rn rd rs bit7 ty rm) :=
  fun _ => selects_shiftReg .rsb c sf rn rd rs bit7 ty rm

theorem addImm (c : Cond) (sf : Bool) (rn rd : Reg) (rotate : BitVec 4) (imm8 : BitVec 8) :
    Statement (.addImm c sf rn rd rotate imm8) :=
  fun _ => selects_imm .add c sf rn rd rotate imm8

theorem addShiftImm (c : Cond) (sf : Bool) (rn rd : Reg) (amount : BitVec 5) (ty : ShiftType) (rm : Reg) :
    Statement (.addShiftImm c sf rn rd amount ty rm) :=
  fun _ => selects_shiftImm .add c sf rn rd amount ty rm

theorem addShiftReg (c : Cond) (sf : Bool) (rn rd : Reg) (rs : Reg) (bit7 : Bool) (ty : ShiftType) (rm : Reg) :
    Statement (.addShiftReg c sf rn rd rs bit7 ty rm) :=
  fun _ => selects_shiftReg .add c sf rn rd rs bit7 ty rm

theorem adcImm (c : Cond) (sf : Bool) (rn rd : Reg) (rotate : BitVec 4) (imm8 : BitVec 8) :
    Statement (.adcImm c sf rn rd rotate imm8) :=
  fun _ => selects_imm .adc c sf rn rd rotate imm8

theorem adcShiftImm (c : Cond) (sf : Bool) (rn rd : Reg) (amount : BitVec 5) (ty : ShiftType) (rm : Reg) :
    Statement (.adcShiftImm c sf rn rd amount ty rm) :=
  fun _ => selects_shiftImm .adc c sf rn rd amount ty rm

theorem adcShiftReg (c : Cond) (sf : Bool) (rn rd : Reg) (rs : Reg) (bit7 : Bool) (ty : ShiftType) (rm : Reg) :
    Statement (.adcShiftReg c sf rn rd rs bit7 ty rm) :=
  fun _ => selects_shiftReg .adc c sf rn rd rs bit7 ty rm

theorem sbcImm (c : Cond) (sf : Bool) (rn rd : Reg) (rotate : BitVec 4) (imm8 : BitVec 8) :
    Statement (.sbcImm c sf rn rd rotate imm8) :=
  fun _ => selects_imm .sbc c sf rn rd rotate imm8

theorem sbcShiftImm (c : Cond) (sf : Bool) (rn rd : Reg) (amount : BitVec 5) (ty : ShiftType) (rm : Reg) :
    Statement (.sbcShiftImm c sf rn rd amount ty rm) :=
  fun _ => selects_shiftImm .sbc c sf rn rd amount ty rm

theorem sbcShiftReg (c : Cond) (sf : Bool) (rn rd : Reg) (rs : Reg) (bit7 : Bool) (ty : ShiftType) (rm : Reg) :
    Statement (.sbcShiftReg c sf rn rd rs bit7 ty rm) :=
  fun _ => selects_shiftReg .sbc c sf rn rd rs bit7 ty rm

theorem rscImm (c : Cond) (sf : Bool) (rn rd : Reg) (rotate : BitVec 4) (imm8 : BitVec 8) :
    Statement (.rscImm c sf rn rd rotate imm8) :=
  fun _ => selects_imm .rsc c sf rn rd rotate imm8

theorem rscShiftImm (c : Cond) (sf : Bool) (rn rd : Reg) (amount : BitVec 5) (ty : ShiftType) (rm : Reg) :
    Statement (.rscShiftImm c sf rn rd amount ty rm) :=
  fun _ => selects_shiftImm .rsc c sf rn rd amount ty rm

theorem rscShiftReg (c : Cond) (sf : Bool) (rn rd : Reg) (rs : Reg) (bit7 : Bool) (ty : ShiftType) (rm : Reg) :
    Statement (.rscShiftReg c sf rn rd rs bit7 ty rm) :=
  fun _ => selects_shiftReg .rsc c sf rn rd rs bit7 ty rm

theorem tstImm (c : Cond) (sf : Bool) (rn rd : Reg) (rotate : BitVec 4) (imm8 : BitVec 8) :
    Statement (.tstImm c sf rn rd rotate imm8) :=
  fun _ => selects_imm .tst c sf rn rd rotate imm8

theorem tstShiftImm (c : Cond) (sf : Bool) (rn rd : Reg) (amount : BitVec 5) (ty : ShiftType) (rm : Reg) :
    Statement (.tstShiftImm c sf rn rd amount ty rm) :=
  fun _ => selects_shiftImm .tst c sf rn rd amount ty rm

theorem tstShiftReg (c : Cond) (sf : Bool) (rn rd : Reg) (rs : Reg) (bit7 : Bool) (ty : ShiftType) (rm : Reg) :
    Statement (.tstShiftReg c sf rn rd rs bit7 ty rm) :=
  fun _ => selects_shiftReg .tst c sf rn rd rs bit7 ty rm

theorem teqImm (c : Cond) (sf : Bool) (rn rd : Reg) (rotate : BitVec 4) (imm8 : BitVec 8) :
    Statement (.teqImm c sf rn rd rotate imm8) :=
  fun _ => selects_imm .teq c sf rn rd rotate imm8

theorem teqShiftImm (c : Cond) (sf : Bool) (rn rd : Reg) (amount : BitVec 5) (ty : ShiftType) (rm : Reg) :
    Statement (.teqShiftImm c sf rn rd amount ty rm) :=
  fun _ => selects_shiftImm .teq c sf rn rd amount ty rm

theorem teqShiftReg (c : Cond) (sf : Bool) (rn rd : Reg) (rs : Reg) (bit7 : Bool) (ty : ShiftType) (rm : Reg) :
    Statement (.teqShiftReg c sf rn rd rs bit7 ty rm) :=
  fun _ => selects_shiftReg .teq c sf rn rd rs bit7 ty rm

theorem cmpImm (c : Cond) (sf : Bool) (rn rd : Reg) (rotate : BitVec 4) (imm8 : BitVec 8) :
    Statement (.cmpImm c sf rn rd rotate imm8) :=
  fun _ => selects_imm .cmp c sf rn rd rotate imm8

theorem cmpShiftImm (c : Cond) (sf : Bool) (rn rd : Reg) (amount : BitVec 5) (ty : ShiftType) (rm : Reg) :
    Statement (.cmpShiftImm c sf rn rd amount ty rm) :=
  fun _ => selects_shiftImm .cmp c sf rn rd amount ty rm

theorem cmpShiftReg (c : Cond) (sf : Bool) (rn rd : Reg) (rs : Reg) (bit7 : Bool) (ty : ShiftType) (rm : Reg) :
    Statement (.cmpShiftReg c sf rn rd rs bit7 ty rm) :=
  fun _ => selects_shiftReg .cmp c sf rn rd rs bit7 ty rm

theorem cmnImm (c : Cond) (sf : Bool) (rn rd : Reg) (rotate : BitVec 4) (imm8 : BitVec 8) :
    Statement (.cmnImm c sf rn rd rotate imm8) :=
  fun _ => selects_imm .cmn c sf rn rd rotate imm8

theorem cmnShiftImm (c : Cond) (sf : Bool) (rn rd : Reg) (amount : BitVec 5) (ty : ShiftType) (rm : Reg) :
    Statement (.cmnShiftImm c sf rn rd amount ty rm) :=
  fun _ => selects_shiftImm .cmn c sf rn rd amount ty rm

theorem cmnShiftReg (c : Cond) (sf : Bool) (rn rd : Reg) (rs : Reg) (bit7 : Bool) (ty : ShiftType) (rm : Reg) :
    Statement (.cmnShiftReg c sf rn rd rs bit7 ty rm) :=
  fun _ => selects_shiftReg .cmn c sf rn rd rs bit7 ty rm

theorem orrImm (c : Cond) (sf : Bool) (rn rd : Reg) (rotate : BitVec 4) (imm8 : BitVec 8) :
    Statement (.orrImm c sf rn rd rotate imm8) :=
  fun _ => selects_imm .orr c sf rn rd rotate imm8

theorem orrShiftImm (c : Cond) (sf : Bool) (rn rd : Reg) (amount : BitVec 5) (ty : ShiftType) (rm : Reg) :
    Statement (.orrShiftImm c sf rn rd amount ty rm) :=
  fun _ => selects_shiftImm .orr c sf rn rd amount ty rm

theorem orrShiftReg (c : Cond) (sf : Bool) (rn rd : Reg) (rs : Reg) (bit7 : Bool) (ty : ShiftType) (rm : Reg) :
    Statement (.orrShiftReg c sf rn rd rs bit7 ty rm) :=
  fun _ => selects_shiftReg .orr c sf rn rd rs bit7 ty rm

theorem movImm (c : Cond) (sf : Bool) (rn rd : Reg) (rotate : BitVec 4) (imm8 : BitVec 8) :
    Statement (.movImm c sf rn rd rotate imm8) :=
  fun _ => selects_imm .mov c sf rn rd rotate imm8

theorem movShiftImm (c : Cond) (sf : Bool) (rn rd : Reg) (amount : BitVec 5) (ty : ShiftType) (rm : Reg) :
    Statement (.movShiftImm c sf rn rd amount ty rm) :=
  fun _ => selects_shiftImm .mov c sf rn rd amount ty rm

theorem movShiftReg (c : Cond) (sf : Bool) (rn rd : Reg) (rs : Reg) (bit7 : Bool) (ty : ShiftType) (rm : Reg) :
    Statement (.movShiftReg c sf rn rd rs bit7 ty rm) :=
  fun _ => selects_shiftReg .mov c sf rn rd rs bit7 ty rm

theorem bicImm (c : Cond) (sf : Bool) (rn rd : Reg) (rotate : BitVec 4) (imm8 : BitVec 8) :
    Statement (.bicImm c sf rn rd rotate imm8) :=
  fun _ => selects_imm .bic c sf rn rd rotate imm8

theorem bicShiftImm (c : Cond) (sf : Bool) (rn rd : Reg) (amount : BitVec 5) (ty : ShiftType) (rm : Reg) :
    Statement (.bicShiftImm c sf rn rd amount ty rm) :=
  fun _ => selects_shiftImm .bic c sf rn rd amount ty rm

theorem bicShiftReg (c : Cond) (sf : Bool) (rn rd : Reg) (rs : Reg) (bit7 : Bool) (ty : ShiftType) (rm : Reg) :
    Statement (.bicShiftReg c sf rn rd rs bit7 ty rm) :=
  fun _ => selects_shiftReg .bic c sf rn rd rs bit7 ty rm

theorem mvnImm (c : Cond) (sf : Bool) (rn rd : Reg) (rotate : BitVec 4) (imm8 : BitVec 8) :
    Statement (.mvnImm c sf rn rd rotate imm8) :=
  fun _ => selects_imm .mvn c sf rn rd rotate imm8

theorem mvnShiftImm (c : Cond) (sf : Bool) (rn rd : Reg) (amount : BitVec 5) (ty : ShiftType) (rm : Reg) :
    Statement (.mvnShiftImm c sf rn rd amount ty rm) :=
  fun _ => selects_shiftImm .mvn c sf rn rd amount ty rm

theorem mvnShiftReg (c : Cond) (sf : Bool) (rn rd : Reg) (rs : Reg) (bit7 : Bool) (ty : ShiftType) (rm : Reg) :
    Statement (.mvnShiftReg c sf rn rd rs bit7 ty rm) :=
  fun _ => selects_shiftReg .mvn c sf rn rd rs bit7 ty rm

theorem ldrReg (c : Cond) (b24 u b22 b21 : Bool) (rn rd : Reg) (amount : BitVec 5) (ty : ShiftType) (rm : Reg) :
    Statement (.ldrReg c b24 u b22 b21 rn rd amount ty rm) := by
  intro h
  have hn : c ≠ .nv := by simpa [Instr.wellFormed] using h
  have e : encode (.ldrReg c b24 u b22 b21 rn rd amount ty rm) &&& 0x0E100010#32 = 0x06100000#32 := by
    apply BitVec.eq_of_getLsbD_eq
    intro n hn
    interval_cases n <;> simp [encode, encodeTransfer, encodeShiftedReg]
  have p := transfer_not_preload hn true b24 u b22 b21 true rn rd (encodeShiftedReg amount ty false rm) (by
    apply BitVec.eq_of_getLsbD_eq
    intro n hn
    interval_cases n <;> simp [encodeShiftedReg])
  simp only [encode] at e
  simp [OpcodeRow.selects, Instr.row, encode, e, p]

theorem ldrRegBit4 (c : Cond) (b24 u b22 b21 : Bool) (rn rd : Reg) (offHi : BitVec 7) (offLo : BitVec 4) :
    Statement (.ldrRegBit4 c b24 u b22 b21 rn rd offHi offLo) := by
  intro h
  have hn : c ≠ .nv := by simpa [Instr.wellFormed] using h
  have e : encode (.ldrRegBit4 c b24 u b22 b21 rn rd offHi offLo) &&& 0x0E100010#32 = 0x06100010#32 := by
    apply BitVec.eq_of_getLsbD_eq
    intro n hn
    interval_cases n <;> simp [encode, encodeTransfer]
  have p := transfer_not_preload hn true b24 u b22 b21 true rn rd
    (place 5 offHi ||| place 4 0b1#1 ||| place 0 offLo) (by
    apply BitVec.eq_of_getLsbD_eq
    intro n hn
    interval_cases n <;> simp)
  simp only [encode] at e
  simp [OpcodeRow.selects, Instr.row, encode, e, p]

theorem ldrImm (c : Cond) (b24 u b22 b21 : Bool) (rn rd : Reg) (imm12 : BitVec 12) :
    Statement (.ldrImm c b24 u b22 b21 rn rd imm12) := by
  intro h
  have hn : c ≠ .nv := by simpa [Instr.wellFormed] using h
  have e : encode (.ldrImm c b24 u b22 b21 rn rd imm12) &&& 0x0E100000#32 = 0x04100000#32 := by
    apply BitVec.eq_of_getLsbD_eq
    intro n hn
    interval_cases n <;> simp [encode, encodeTransfer]
  have p := transfer_not_preload hn false b24 u b22 b21 true rn rd (place 0 imm12) (by
    apply BitVec.eq_of_getLsbD_eq
    intro n hn
    interval_cases n <;> simp)
  simp only [encode] at e
  simp [OpcodeRow.selects, Instr.row, encode, e, p]

theorem str (c : Cond) (i b24 u b22 b21 : Bool) (rn rd : Reg) (offset : BitVec 12) :
    Statement (.str c i b24 u b22 b21 rn rd offset) := by
  intro h
  have hn : c ≠ .nv := by simpa [Instr.wellFormed] using h
  have e : encode (.str c i b24 u b22 b21 rn rd offset) &&& 0x0C100000#32 = 0x04000000#32 := by
    apply BitVec.eq_of_getLsbD_eq
    intro n hn
    interval_cases n <;> simp [encode, encodeTransfer]
  have p := transfer_not_preload hn i b24 u b22 b21 false rn rd (place 0 offset) (by
    apply BitVec.eq_of_getLsbD_eq
    intro n hn
    interval_cases n <;> simp)
  simp only [encode] at e
  simp [OpcodeRow.selects, Instr.row, encode, e, p]

theorem pld (rest : BitVec 26) : Statement (.pld rest) := by
  intro _
  have e : encode (.pld rest) &&& 0xFC000000#32 = 0xF4000000#32 := by
    apply BitVec.eq_of_getLsbD_eq
    intro n hn
    interval_cases n <;> simp [encode]
  simp [OpcodeRow.selects, Instr.row, e]

theorem undecodable100 (c : Cond) (rest : BitVec 25) : Statement (.undecodable100 c rest) := by
  intro _
  have e : encode (.undecodable100 c rest) &&& 0x0E000000#32 = 0x08000000#32 := by
    apply BitVec.eq_of_getLsbD_eq
    intro n hn
    interval_cases n <;> simp [encode]
  simp [OpcodeRow.selects, Instr.row, e]

theorem undecodable110 (c : Cond) (rest : BitVec 25) : Statement (.undecodable110 c rest) := by
  intro _
  have e : encode (.undecodable110 c rest) &&& 0x0E000000#32 = 0x0C000000#32 := by
    apply BitVec.eq_of_getLsbD_eq
    intro n hn
    interval_cases n <;> simp [encode]
  simp [OpcodeRow.selects, Instr.row, e]

theorem undecodable111 (c : Cond) (rest : BitVec 25) : Statement (.undecodable111 c rest) := by
  intro _
  have e : encode (.undecodable111 c rest) &&& 0x0E000000#32 = 0x0E000000#32 := by
    apply BitVec.eq_of_getLsbD_eq
    intro n hn
    interval_cases n <;> simp [encode]
  simp [OpcodeRow.selects, Instr.row, e]

end Sys2Proof.Laws.SelectsRow
end

