-- ==== Sys2Proof/Tests/Slice0.lean ====
section
/-! SUPPORT. Tests. Expected values come from spec/: the vectors of 95_test_vectors.md, the encodings of
30_encoding.md written out field by field, and for each statement with hypotheses a state that meets them. -/

namespace Sys2Proof.Tests

open Sys2Proof.Machine Sys2Proof.Claims

/-- Well-formedness refuses a load or store with condition 1111, one check per constructor (30_encoding.md R81). -/
theorem test_wellFormed_refuses_nv :
    Instr.wellFormed (.ldrReg .nv true true false false 1 0 0 .lsl 2) = false ∧
    Instr.wellFormed (.ldrRegBit4 .nv true true false false 1 0 0x18 2) = false ∧
    Instr.wellFormed (.ldrImm .nv true true false false 1 0 4) = false ∧
    Instr.wellFormed (.str .nv true true true false false 1 0 2) = false := by decide

/-- The same terms with another condition are accepted, and so is a branch with condition 1111 (43_branch.md R203). -/
theorem test_wellFormed_accepts :
    Instr.wellFormed (.ldrReg .al true true false false 1 0 0 .lsl 2) = true ∧
    Instr.wellFormed (.ldrRegBit4 .eq true true false false 1 0 0x18 2) = true ∧
    Instr.wellFormed (.ldrImm .ne true true false false 1 0 4) = true ∧
    Instr.wellFormed (.str .le true true true false false 1 0 2) = true ∧
    Instr.wellFormed (.b .nv 3) = true := by decide

/-- AND: cond, 00, I, opcode, S, Rn, Rd and operand 2 in its three forms (30_encoding.md R74 to R78). -/
theorem test_decode_and :
    decodeTableWord 32 0b0000_00_1_0000_0_0001_0010_0011_10100101 =
      some (.andImm .eq false 1 2 3 165) ∧
    decodeTableWord 32 0b0000_00_0_0000_0_0001_0010_00101_00_0_0100 =
      some (.andShiftImm .eq false 1 2 5 .lsl 4) ∧
    decodeTableWord 32 0b0000_00_0_0000_0_0001_0010_0110_0_01_1_0100 =
      some (.andShiftReg .eq false 1 2 6 false .lsr 4) := by decide

/-- EOR: cond, 00, I, opcode, S, Rn, Rd and operand 2 in its three forms (30_encoding.md R74 to R78). -/
theorem test_decode_eor :
    decodeTableWord 32 0b0001_00_1_0001_1_0100_0111_1010_11001010 =
      some (.eorImm .ne true 4 7 10 202) ∧
    decodeTableWord 32 0b0001_00_0_0001_1_0100_0111_10000_01_0_1101 =
      some (.eorShiftImm .ne true 4 7 16 .lsr 13) ∧
    decodeTableWord 32 0b0001_00_0_0001_1_0100_0111_0011_0_10_1_1101 =
      some (.eorShiftReg .ne true 4 7 3 false .asr 13) := by decide

/-- SUB: cond, 00, I, opcode, S, Rn, Rd and operand 2 in its three forms (30_encoding.md R74 to R78). -/
theorem test_decode_sub :
    decodeTableWord 32 0b0010_00_1_0010_0_0111_1100_0001_11101111 =
      some (.subImm .cs false 7 12 1 239) ∧
    decodeTableWord 32 0b0010_00_0_0010_0_0111_1100_11011_10_0_0110 =
      some (.subShiftImm .cs false 7 12 27 .asr 6) ∧
    decodeTableWord 32 0b0010_00_0_0010_0_0111_1100_0000_1_11_1_0110 =
      some (.subShiftReg .cs false 7 12 0 true .ror 6) := by decide

/-- RSB: cond, 00, I, opcode, S, Rn, Rd and operand 2 in its three forms (30_encoding.md R74 to R78). -/
theorem test_decode_rsb :
    decodeTableWord 32 0b0011_00_1_0011_1_1010_0001_1000_00010100 =
      some (.rsbImm .cc true 10 1 8 20) ∧
    decodeTableWord 32 0b0011_00_0_0011_1_1010_0001_00110_11_0_1111 =
      some (.rsbShiftImm .cc true 10 1 6 .ror 15) ∧
    decodeTableWord 32 0b0011_00_0_0011_1_1010_0001_1101_1_00_1_1111 =
      some (.rsbShiftReg .cc true 10 1 13 true .lsl 15) := by decide

/-- ADD: cond, 00, I, opcode, S, Rn, Rd and operand 2 in its three forms (30_encoding.md R74 to R78). -/
theorem test_decode_add :
    decodeTableWord 32 0b0100_00_1_0100_0_1101_0110_1111_00111001 =
      some (.addImm .mi false 13 6 15 57) ∧
    decodeTableWord 32 0b0100_00_0_0100_0_1101_0110_10001_00_0_1000 =
      some (.addShiftImm .mi false 13 6 17 .lsl 8) ∧
    decodeTableWord 32 0b0100_00_0_0100_0_1101_0110_1010_0_01_1_1000 =
      some (.addShiftReg .mi false 13 6 10 false .lsr 8) := by decide

/-- ADC: cond, 00, I, opcode, S, Rn, Rd and operand 2 in its three forms (30_encoding.md R74 to R78). -/
theorem test_decode_adc :
    decodeTableWord 32 0b0101_00_1_0101_1_0000_1011_0110_01011110 =
      some (.adcImm .pl true 0 11 6 94) ∧
    decodeTableWord 32 0b0101_00_0_0101_1_0000_1011_11100_01_0_0001 =
      some (.adcShiftImm .pl true 0 11 28 .lsr 1) ∧
    decodeTableWord 32 0b0101_00_0_0101_1_0000_1011_0111_0_10_1_0001 =
      some (.adcShiftReg .pl true 0 11 7 false .asr 1) := by decide

/-- SBC: cond, 00, I, opcode, S, Rn, Rd and operand 2 in its three forms (30_encoding.md R74 to R78). -/
theorem test_decode_sbc :
    decodeTableWord 32 0b0110_00_1_0110_0_0011_0000_1101_10000011 =
      some (.sbcImm .vs false 3 0 13 131) ∧
    decodeTableWord 32 0b0110_00_0_0110_0_0011_0000_00111_10_0_1010 =
      some (.sbcShiftImm .vs false 3 0 7 .asr 10) ∧
    decodeTableWord 32 0b0110_00_0_0110_0_0011_0000_0100_1_11_1_1010 =
      some (.sbcShiftReg .vs false 3 0 4 true .ror 10) := by decide

/-- RSC: cond, 00, I, opcode, S, Rn, Rd and operand 2 in its three forms (30_encoding.md R74 to R78). -/
theorem test_decode_rsc :
    decodeTableWord 32 0b0111_00_1_0111_1_0110_0101_0100_10101000 =
      some (.rscImm .vc true 6 5 4 168) ∧
    decodeTableWord 32 0b0111_00_0_0111_1_0110_0101_10010_11_0_0011 =
      some (.rscShiftImm .vc true 6 5 18 .ror 3) ∧
    decodeTableWord 32 0b0111_00_0_0111_1_0110_0101_0001_1_00_1_0011 =
      some (.rscShiftReg .vc true 6 5 1 true .lsl 3) := by decide

/-- TST: cond, 00, I, opcode, S, Rn, Rd and operand 2 in its three forms (30_encoding.md R74 to R78). -/
theorem test_decode_tst :
    decodeTableWord 32 0b1000_00_1_1000_0_1001_1010_1011_11001101 =
      some (.tstImm .hi false 9 10 11 205) ∧
    decodeTableWord 32 0b1000_00_0_1000_0_1001_1010_11101_00_0_1100 =
      some (.tstShiftImm .hi false 9 10 29 .lsl 12) ∧
    decodeTableWord 32 0b1000_00_0_1000_0_1001_1010_1110_0_01_1_1100 =
      some (.tstShiftReg .hi false 9 10 14 false .lsr 12) := by decide

/-- TEQ: cond, 00, I, opcode, S, Rn, Rd and operand 2 in its three forms (30_encoding.md R74 to R78). -/
theorem test_decode_teq :
    decodeTableWord 32 0b1001_00_1_1001_1_1100_1111_0010_11110010 =
      some (.teqImm .ls true 12 15 2 242) ∧
    decodeTableWord 32 0b1001_00_0_1001_1_1100_1111_01000_01_0_0101 =
      some (.teqShiftImm .ls true 12 15 8 .lsr 5) ∧
    decodeTableWord 32 0b1001_00_0_1001_1_1100_1111_1011_0_10_1_0101 =
      some (.teqShiftReg .ls true 12 15 11 false .asr 5) := by decide

/-- CMP: cond, 00, I, opcode, S, Rn, Rd and operand 2 in its three forms (30_encoding.md R74 to R78). -/
theorem test_decode_cmp :
    decodeTableWord 32 0b1010_00_1_1010_0_1111_0100_1001_00010111 =
      some (.cmpImm .ge false 15 4 9 23) ∧
    decodeTableWord 32 0b1010_00_0_1010_0_1111_0100_10011_10_0_1110 =
      some (.cmpShiftImm .ge false 15 4 19 .asr 14) ∧
    decodeTableWord 32 0b1010_00_0_1010_0_1111_0100_1000_1_11_1_1110 =
      some (.cmpShiftReg .ge false 15 4 8 true .ror 14) := by decide

/-- CMN: cond, 00, I, opcode, S, Rn, Rd and operand 2 in its three forms (30_encoding.md R74 to R78). -/
theorem test_decode_cmn :
    decodeTableWord 32 0b1011_00_1_1011_1_0010_1001_0000_00111100 =
      some (.cmnImm .lt true 2 9 0 60) ∧
    decodeTableWord 32 0b1011_00_0_1011_1_0010_1001_11110_11_0_0111 =
      some (.cmnShiftImm .lt true 2 9 30 .ror 7) ∧
    decodeTableWord 32 0b1011_00_0_1011_1_0010_1001_0101_1_00_1_0111 =
      some (.cmnShiftReg .lt true 2 9 5 true .lsl 7) := by decide

/-- ORR: cond, 00, I, opcode, S, Rn, Rd and operand 2 in its three forms (30_encoding.md R74 to R78). -/
theorem test_decode_orr :
    decodeTableWord 32 0b1100_00_1_1100_0_0101_1110_0111_01100001 =
      some (.orrImm .gt false 5 14 7 97) ∧
    decodeTableWord 32 0b1100_00_0_1100_0_0101_1110_01001_00_0_0000 =
      some (.orrShiftImm .gt false 5 14 9 .lsl 0) ∧
    decodeTableWord 32 0b1100_00_0_1100_0_0101_1110_0010_0_01_1_0000 =
      some (.orrShiftReg .gt false 5 14 2 false .lsr 0) := by decide

/-- MOV: cond, 00, I, opcode, S, Rn, Rd and operand 2 in its three forms (30_encoding.md R74 to R78). -/
theorem test_decode_mov :
    decodeTableWord 32 0b1101_00_1_1101_1_1000_0011_1110_10000110 =
      some (.movImm .le true 8 3 14 134) ∧
    decodeTableWord 32 0b1101_00_0_1101_1_1000_0011_10100_01_0_1001 =
      some (.movShiftImm .le true 8 3 20 .lsr 9) ∧
    decodeTableWord 32 0b1101_00_0_1101_1_1000_0011_1111_0_10_1_1001 =
      some (.movShiftReg .le true 8 3 15 false .asr 9) := by decide

/-- BIC: cond, 00, I, opcode, S, Rn, Rd and operand 2 in its three forms (30_encoding.md R74 to R78). -/
theorem test_decode_bic :
    decodeTableWord 32 0b1110_00_1_1110_0_1011_1000_0101_10101011 =
      some (.bicImm .al false 11 8 5 171) ∧
    decodeTableWord 32 0b1110_00_0_1110_0_1011_1000_11111_10_0_0010 =
      some (.bicShiftImm .al false 11 8 31 .asr 2) ∧
    decodeTableWord 32 0b1110_00_0_1110_0_1011_1000_1100_1_11_1_0010 =
      some (.bicShiftReg .al false 11 8 12 true .ror 2) := by decide

/-- MVN: cond, 00, I, opcode, S, Rn, Rd and operand 2 in its three forms (30_encoding.md R74 to R78). -/
theorem test_decode_mvn :
    decodeTableWord 32 0b1111_00_1_1111_1_1110_1101_1100_11010000 =
      some (.mvnImm .nv true 14 13 12 208) ∧
    decodeTableWord 32 0b1111_00_0_1111_1_1110_1101_01010_11_0_1011 =
      some (.mvnShiftImm .nv true 14 13 10 .ror 11) ∧
    decodeTableWord 32 0b1111_00_0_1111_1_1110_1101_1001_1_00_1_1011 =
      some (.mvnShiftReg .nv true 14 13 9 true .lsl 11) := by decide

/-- Branches: cond, 101, L, offset24 (30_encoding.md R73; the words of 95_test_vectors.md S2 are in a statement). -/
theorem test_decode_branch :
    decodeTableWord 32 0b1011_101_0_100000000000000000000001 = some (.b .lt 0x800001) ∧
    decodeTableWord 32 0b1111_101_1_010000000000000000000110 = some (.bl .nv 0x400006) := by decide

/-- Transfers: cond, 01, I, 24, U, 22, 21, L, Rn, Rd, offset (30_encoding.md R80, R81). -/
theorem test_decode_transfer :
    decodeTableWord 32 0b0010_01_1_1_0_0_1_1_1001_0110_10001_10_0_0111 =
      some (.ldrReg .cs true false false true 9 6 17 .asr 7) ∧
    decodeTableWord 32 0b0101_01_1_0_1_1_0_1_1110_0001_1010101_1_0011 =
      some (.ldrRegBit4 .pl false true true false 14 1 0b1010101 3) ∧
    decodeTableWord 32 0b1100_01_0_1_0_1_0_1_0011_1100_100000010001 =
      some (.ldrImm .gt true false true false 3 12 0x811) ∧
    decodeTableWord 32 0b0000_01_0_0_1_0_1_0_1101_1010_010000000001 =
      some (.str .eq false false true false true 13 10 0x401) ∧
    decodeTableWord 32 0b1111_01_0_1_0_0_0_1_0001_1111_000000000001 = some (.pld 0x111F001) := by decide

/-- The three patterns that no category matches (30_encoding.md R82). -/
theorem test_decode_undecodable :
    decodeTableWord 32 0b1110_100_0101111011000000000000000 = some (.undecodable100 .al 0x0BD8000) ∧
    decodeTableWord 32 0b1111_110_0000000000000000000000001 = some (.undecodable110 .nv 1) ∧
    decodeTableWord 32 0b0000_111_1000000000000000000000000 = some (.undecodable111 .eq 0x1000000) := by decide

/-- Fewer than four bytes are refused by name; the byte at the lowest offset is the low byte (20_memory.md R51). -/
theorem test_decodeBytes :
    decodeBytes [0x00, 0x00, 0xA0] = .error .tooShort ∧
    decodeBytes [0x0F, 0xF0, 0xA0, 0xE3, 0x77] = .ok (.movImm .al false 0 15 0 15, [0x77]) := by
  constructor <;> rfl

/-- The encoder on words of 95_test_vectors.md: MOV R15, #15; the BX LR pattern; LDR R13, [PC, -R1, LSL #2]; BL 3. -/
theorem test_encode :
    encode (.movImm .al false 0 15 0 15) = 0xE3A0F00F#32 ∧
    encode (.teqShiftReg .al false 15 15 15 false .lsl 14) = 0xE12FFF1E#32 ∧
    encode (.ldrReg .al true false false false 15 13 2 .lsl 1) = 0xE71FD101#32 ∧
    encode (.bl .al 3) = 0xEB000003#32 := by decide

/-- The flags of the four bits NZCV. -/
def nzcv (v : BitVec 4) : Flags := ⟨v.getLsbD 3, v.getLsbD 2, v.getLsbD 1, v.getLsbD 0⟩

/-- The reset state with parameters `cfg`, the pc at `x`, the flags `f`, the registers `rs`, and `w` placed at `x`. -/
def start (cfg : Config) (x : Word) (f : BitVec 4) (rs : List (Reg × Word)) (w : Nat) : State :=
  (((rs.foldl (fun s p => s.set p.1 p.2) (State.resetWith cfg ⟨0, []⟩)).set 15 x).setFlags (nzcv f)).withFetchWord 32 w

/-- A core with code length `len`, an image of zeros, and the pc at `x`. -/
def bare (len : Nat) (x : Word) : State := (State.resetWith Config.default ⟨len, []⟩).set 15 x

/-- The outcome is a next state with these registers, flags and latch. -/
def shows (o : Host.Outcome State Fault Refusal) (rs : List (Reg × Word)) (f : BitVec 4) (l : Option FaultKind) : Bool :=
  match o with
  | .next t => rs.all (fun p => t.get p.1 == p.2) && (t.flags == nzcv f) && (t.latch == l)
  | .fault _ | .refused _ => false

/-- The conditions' outcomes, NZCV = 0000 first (95_test_vectors.md 2.1). -/
def conditionRows : List (Cond × Nat) :=
  [(.eq, 0b0000111100001111),
   (.ne, 0b1111000011110000),
   (.cs, 0b0011001100110011),
   (.cc, 0b1100110011001100),
   (.mi, 0b0000000011111111),
   (.pl, 0b1111111100000000),
   (.vs, 0b0101010101010101),
   (.vc, 0b1010101010101010),
   (.hi, 0b0011000000110000),
   (.ls, 0b1100111111001111),
   (.ge, 0b1010101001010101),
   (.lt, 0b0101010110101010),
   (.gt, 0b1010000001010000),
   (.le, 0b0101111110101111),
   (.al, 0b1111111111111111),
   (.nv, 0b0000000000000000)]

/-- All 256 outcomes of the condition table (95_test_vectors.md 2.1). -/
theorem test_conditions :
    conditionRows.all (fun r => (List.range 16).all fun i =>
      canExecute r.1 (nzcv (BitVec.ofNat 4 i)) == r.2.testBit (15 - i)) = true := by decide

/-- LSL: amount, value, carry-in, result, carry-out (95_test_vectors.md 2.2). -/
def rowsLsl : List (Nat × Word × Bool × Word × Bool) :=
  [(0, 0xDEADBEEF, true, 0xDEADBEEF, true),
   (0, 0xDEADBEEF, false, 0xDEADBEEF, false),
   (1, 0x80000000, false, 0x00000000, true),
   (4, 0x12345678, false, 0x23456780, true),
   (31, 0x00000003, false, 0x80000000, true),
   (31, 0x00000001, true, 0x80000000, false),
   (32, 0x00000001, false, 0x00000000, true),
   (32, 0xFFFFFFFE, true, 0x00000000, false),
   (33, 0xFFFFFFFF, true, 0x00000000, false),
   (255, 0xFFFFFFFF, true, 0x00000000, false)]

theorem test_lsl :
    rowsLsl.all (fun r => shift .lsl r.1 r.2.1 r.2.2.1 == ⟨r.2.2.2.1, r.2.2.2.2⟩) = true := by decide

/-- LSR: amount, value, carry-in, result, carry-out (95_test_vectors.md 2.2). -/
def rowsLsr : List (Nat × Word × Bool × Word × Bool) :=
  [(0, 0x80000001, false, 0x00000000, true),
   (0, 0x7FFFFFFF, true, 0x00000000, false),
   (1, 0x00000001, false, 0x00000000, true),
   (4, 0x80000008, false, 0x08000000, true),
   (31, 0x80000000, true, 0x00000001, false),
   (32, 0x80000000, false, 0x00000000, true),
   (32, 0x7FFFFFFF, true, 0x00000000, false),
   (33, 0xFFFFFFFF, true, 0x00000000, false)]

theorem test_lsr :
    rowsLsr.all (fun r => shift .lsr r.1 r.2.1 r.2.2.1 == ⟨r.2.2.2.1, r.2.2.2.2⟩) = true := by decide

/-- ASR: amount, value, carry-in, result, carry-out (95_test_vectors.md 2.2). -/
def rowsAsr : List (Nat × Word × Bool × Word × Bool) :=
  [(0, 0x80000000, false, 0xFFFFFFFF, true),
   (0, 0x7FFFFFFF, true, 0x00000000, false),
   (1, 0x7FFFFFFE, true, 0x3FFFFFFF, false),
   (4, 0x80000008, false, 0xF8000000, true),
   (31, 0x80000000, false, 0xFFFFFFFF, false),
   (31, 0x40000000, true, 0x00000000, true),
   (32, 0x80000000, false, 0xFFFFFFFF, true),
   (32, 0x7FFFFFFF, true, 0x00000000, false),
   (200, 0x80000000, false, 0xFFFFFFFF, true)]

theorem test_asr :
    rowsAsr.all (fun r => shift .asr r.1 r.2.1 r.2.2.1 == ⟨r.2.2.2.1, r.2.2.2.2⟩) = true := by decide

/-- ROR: amount, value, carry-in, result, carry-out (95_test_vectors.md 2.2). -/
def rowsRor : List (Nat × Word × Bool × Word × Bool) :=
  [(0, 0x00000003, true, 0x80000001, true),
   (0, 0x80000000, false, 0x40000000, false),
   (1, 0x00000001, false, 0x80000000, true),
   (8, 0x000000FF, false, 0xFF000000, true),
   (16, 0x12345678, false, 0x56781234, false),
   (31, 0x00000001, false, 0x00000002, false),
   (32, 0x80000001, false, 0x80000001, true),
   (32, 0x7FFFFFFF, true, 0x7FFFFFFF, false),
   (33, 0x00000001, false, 0x80000000, true),
   (36, 0x0000000F, false, 0xF0000000, true),
   (64, 0x80000001, false, 0x80000001, true),
   (255, 0x00000001, false, 0x00000002, false)]

theorem test_ror :
    rowsRor.all (fun r => shift .ror r.1 r.2.1 r.2.2.1 == ⟨r.2.2.2.1, r.2.2.2.2⟩) = true := by decide

/-- The immediate operand (95_test_vectors.md 2.2). -/
theorem test_operandImm :
    operandImm (start Config.default 0 0b0010 [] 0) 0 0xFF = ⟨0x000000FF, true⟩ ∧
    operandImm (start Config.default 0 0b0000 [] 0) 4 0xFF = ⟨0xFF000000, true⟩ ∧
    operandImm (start Config.default 0 0b0010 [] 0) 15 0x01 = ⟨0x00000004, false⟩ ∧
    operandImm (start Config.default 0 0b0000 [] 0) 1 0x02 = ⟨0x80000000, true⟩ ∧
    operandImm (start Config.default 0 0b0010 [] 0) 8 0x00 = ⟨0x00000000, false⟩ := by decide

/-- MOV R0, #0xFF000000 (95 S4). -/
theorem test_mov_imm_rotates :
    shows (step (start Config.default 0 0b0000 [] 0xE3A004FF))
      [(0, 0xFF000000), (15, 4)] 0b0000 none = true := by decide

/-- MOV R15, #15: the Advance follows the write (95 S4). -/
theorem test_mov_imm_pc :
    shows (step (start Config.default 0 0b0000 [] 0xE3A0F00F))
      [(15, 0x13)] 0b0000 none = true := by decide

/-- MOVS R0, R1, ASR #32 (95 2.3). -/
theorem test_mov_shiftImm_asr32 :
    shows (step (start Config.default 0 0b0000 [(1, 0x80000000)] 0xE1B00041))
      [(0, 0xFFFFFFFF), (1, 0x80000000), (15, 4)] 0b1010 none = true := by decide

/-- MOV R0, R1, RRX without RRX (95 2.3). -/
theorem test_mov_shiftImm_rrx_missing :
    shows (step (start Config.default 0 0b0010 [(1, 3)] 0xE1A00061))
      [(0, 0), (1, 3), (15, 0)] 0b0010 (some .unimplemented) = true := by decide

/-- MOV R0, R1, LSL R2, bit 7 set: only the low byte of R2 counts (95 2.3). -/
theorem test_mov_shiftReg_low_byte :
    shows (step (start Config.default 0 0b0000 [(1, 3), (2, 0x104)] 0xE1A00291))
      [(0, 0x30), (15, 4)] 0b0000 none = true := by decide

/-- MOVS R0, R1, LSR R2 with R2 = 0 is LSR by 32 (95 2.3). -/
theorem test_mov_shiftReg_amount_zero :
    shows (step (start Config.default 0 0b0000 [(1, 0x80000001)] 0xE1B00231))
      [(0, 0), (15, 4)] 0b0110 none = true := by decide

/-- TEQ R1, #0 (95 S5). -/
theorem test_teq_imm :
    shows (step (start Config.default 0 0b1100 [(1, 0x64)] 0xE3310000))
      [(1, 0x64), (15, 4)] 0b0000 none = true := by decide

/-- TEQ with S = 0: N and Z are written, C and V kept (95 2.4). -/
theorem test_teq_shiftImm_s0 :
    shows (step (start Config.default 0 0b0110 [(1, 0x80000000), (2, 1)] 0xE1210002))
      [(1, 0x80000000), (15, 4)] 0b1010 none = true := by decide

/-- TEQ R1, R2, LSR #1: C from the shifter (95 2.4). -/
theorem test_teq_shiftImm_carry :
    shows (step (start Config.default 0 0b0000 [(1, 1), (2, 3)] 0xE13100A2))
      [(15, 4)] 0b0110 none = true := by decide

/-- The BX LR pattern is a TEQ and branches nowhere (95 2.4). -/
theorem test_teq_shiftReg_bx_pattern :
    shows (step (start Config.default 0x10 0b0000 [(14, 0x100)] 0xE12FFF1E))
      [(14, 0x100), (15, 0x14)] 0b0000 none = true := by decide

/-- ADD R0, R0, #1 on the default core (95 2.4). -/
theorem test_add_imm_no_handler :
    shows (step (start Config.default 0 0b0000 [] 0xE2800001))
      [(0, 0), (15, 0)] 0b0000 (some .unimplemented) = true := by decide

/-- ADDEQ R0, R0, #1, not executed: no fault (95 2.4). -/
theorem test_add_imm_condition_fails :
    shows (step (start Config.default 0 0b0000 [] 0x02800001))
      [(0, 0), (15, 4)] 0b0000 none = true := by decide

/-- The MUL pattern is an AND (95 2.4). -/
theorem test_and_shiftReg_mul_pattern :
    shows (step (start Config.default 0 0b0000 [(1, 3), (2, 4)] 0xE0010291))
      [(0, 0), (15, 0)] 0b0000 (some .unimplemented) = true := by decide

/-- ANDS R0, R1, R2 (95 2.4). -/
theorem test_and_shiftImm :
    shows (step (start Config.arch 0 0b0010 [(1, 0xFF00FF00), (2, 0x0FF00FF0)] 0xE0110002))
      [(0, 0x0F000F00), (15, 4)] 0b0010 none = true := by decide

/-- EOR R0, R1, R2 (95 2.4). -/
theorem test_eor_shiftImm :
    shows (step (start Config.arch 0 0b0000 [(1, 0xFF00FF00), (2, 0x0FF00FF0)] 0xE0210002))
      [(0, 0xF0F0F0F0), (15, 4)] 0b0000 none = true := by decide

/-- SUBS R0, R1, #1 borrows (95 2.4). -/
theorem test_sub_imm :
    shows (step (start Config.arch 0 0b0000 [] 0xE2510001))
      [(0, 0xFFFFFFFF), (15, 4)] 0b1000 none = true := by decide

/-- SUBS R0, R1, R2 overflows (95 2.4). -/
theorem test_sub_shiftImm :
    shows (step (start Config.arch 0 0b0000 [(1, 0x80000000), (2, 1)] 0xE0510002))
      [(0, 0x7FFFFFFF), (15, 4)] 0b0011 none = true := by decide

/-- RSBS R0, R1, #0 with R1 = 1 (95 2.4). -/
theorem test_rsb_imm_borrow :
    shows (step (start Config.arch 0 0b0000 [(1, 1)] 0xE2710000))
      [(0, 0xFFFFFFFF)] 0b1000 none = true := by decide

/-- RSBS R0, R1, #0 with the most negative R1 (95 2.4). -/
theorem test_rsb_imm_overflow :
    shows (step (start Config.arch 0 0b0000 [(1, 0x80000000)] 0xE2710000))
      [(0, 0x80000000)] 0b1001 none = true := by decide

/-- ADDS R0, R1, R2 overflows (95 2.4). -/
theorem test_add_shiftImm_overflow :
    shows (step (start Config.arch 0 0b0000 [(1, 0x7FFFFFFF), (2, 1)] 0xE0910002))
      [(0, 0x80000000)] 0b1001 none = true := by decide

/-- ADDS R0, R1, R2 carries (95 2.4). -/
theorem test_add_shiftImm_carry :
    shows (step (start Config.arch 0 0b0000 [(1, 0xFFFFFFFF), (2, 1)] 0xE0910002))
      [(0, 0)] 0b0110 none = true := by decide

/-- ADCS R0, R1, R2: the carry-in makes the result 0 (95 2.4). -/
theorem test_adc_shiftImm_zero :
    shows (step (start Config.arch 0 0b0010 [(1, 0xFFFFFFFF)] 0xE0B10002))
      [(0, 0)] 0b0110 none = true := by decide

/-- ADCS R0, R1, R2 on all ones (95 2.4). -/
theorem test_adc_shiftImm_ones :
    shows (step (start Config.arch 0 0b0010 [(1, 0xFFFFFFFF), (2, 0xFFFFFFFF)] 0xE0B10002))
      [(0, 0xFFFFFFFF)] 0b1010 none = true := by decide

/-- SBCS R0, R1, R2 with C = 0 (95 2.4). -/
theorem test_sbc_shiftImm :
    shows (step (start Config.arch 0 0b0000 [(1, 5), (2, 3)] 0xE0D10002))
      [(0, 1)] 0b0010 none = true := by decide

/-- SBCS R0, R1, R2 on equal operands with C = 0 (95 2.4). -/
theorem test_sbc_shiftImm_borrow :
    shows (step (start Config.arch 0 0b0000 [(1, 9), (2, 9)] 0xE0D10002))
      [(0, 0xFFFFFFFF)] 0b1000 none = true := by decide

/-- RSCS R0, R1, R2 with C = 1 (95 2.4). -/
theorem test_rsc_shiftImm :
    shows (step (start Config.arch 0 0b0010 [(1, 3), (2, 5)] 0xE0F10002))
      [(0, 2)] 0b0010 none = true := by decide

/-- TST R1, #0x80000000 (95 2.4). -/
theorem test_tst_imm :
    shows (step (start Config.arch 0 0b0000 [(1, 0x80000000)] 0xE3110102))
      [(0, 0), (1, 0x80000000), (15, 4)] 0b1010 none = true := by decide

/-- CMP R1, R2 on equal operands (95 2.4). -/
theorem test_cmp_shiftImm :
    shows (step (start Config.arch 0 0b0000 [(1, 5), (2, 5)] 0xE1510002))
      [(0, 0), (15, 4)] 0b0110 none = true := by decide

/-- CMN R1, #1 (95 2.4). -/
theorem test_cmn_imm :
    shows (step (start Config.arch 0 0b0000 [(1, 0xFFFFFFFF)] 0xE3710001))
      [(0, 0), (15, 4)] 0b0110 none = true := by decide

/-- ORR R0, R1, R2 (95 2.4). -/
theorem test_orr_shiftImm :
    shows (step (start Config.arch 0 0b0000 [(1, 0xFF00FF00), (2, 0x0FF00FF0)] 0xE1810002))
      [(0, 0xFFF0FFF0)] 0b0000 none = true := by decide

/-- BIC R0, R1, #0xFF (95 2.4). -/
theorem test_bic_imm :
    shows (step (start Config.arch 0 0b0000 [(1, 0x12345678)] 0xE3C100FF))
      [(0, 0x12345600)] 0b0000 none = true := by decide

/-- MVNS R0, #0 (95 2.4). -/
theorem test_mvn_imm :
    shows (step (start Config.arch 0 0b0010 [] 0xE3F00000))
      [(0, 0xFFFFFFFF)] 0b1010 none = true := by decide

/-- B 0xFFFFFF, offset read unsigned (95 2.5). -/
theorem test_b_unsigned :
    shows (step (start Config.default 0 0b0000 [] 0xEAFFFFFF))
      [(15, 0x04000008)] 0b0000 none = true := by decide

/-- B 0xFFFFFD, offset read signed: a branch to itself (95 2.5). -/
theorem test_b_signed :
    shows (step (start ⟨true, false, [.teq, .mov]⟩ 0x100 0b0000 [] 0xEAFFFFFD))
      [(15, 0x100)] 0b0000 none = true := by decide

/-- BL 3 at 8 (95 S3). -/
theorem test_bl :
    shows (step (start Config.default 8 0b0000 [] 0xEB000003))
      [(14, 0xC), (15, 0x20)] 0b0000 none = true := by decide

/-- BLNE 3 with Z = 1 (95 2.5). -/
theorem test_bl_condition_fails :
    shows (step (start Config.default 8 0b0100 [] 0x1B000003))
      [(14, 0), (15, 0xC)] 0b0100 none = true := by decide

/-- LDR R13, [PC, -R1] at 92 (95 S6). -/
theorem test_ldrReg_subtracts :
    shows (step (start Config.default 92 0b0000 [(1, 0x18)] 0xE71FD001))
      [(13, 0x4C), (15, 0x60)] 0b0000 none = true := by decide

/-- LDR PC, [LR, -R1] (95 2.6). -/
theorem test_ldrReg_pc :
    shows (step (start Config.default 0x80 0b0000 [(1, 4), (14, 0x44)] 0xE71EF001))
      [(14, 0x44), (15, 0x44)] 0b0000 none = true := by decide

/-- A load with I = 1 and bit 4 = 1 (95 2.6). -/
theorem test_ldrRegBit4 :
    shows (step (start Config.default 0 0b0000 [] 0xE7910312))
      [(0, 0), (15, 0)] 0b0000 (some .unimplemented) = true := by decide

/-- LDR R0, [R1, #+4] (95 2.6). -/
theorem test_ldrImm :
    shows (step (start Config.default 0 0b0000 [] 0xE5910004))
      [(0, 0), (15, 0)] 0b0000 (some .unimplemented) = true := by decide

/-- LDRNE R0, [R1, #+4] with Z = 1 (95 2.6). -/
theorem test_ldrImm_condition_fails :
    shows (step (start Config.default 0 0b0100 [] 0x15910004))
      [(15, 4)] 0b0100 none = true := by decide

/-- STR R0, [R1, +R2] (95 2.6). -/
theorem test_str :
    shows (step (start Config.default 0 0b0000 [] 0xE7810002))
      [(0, 0), (15, 0)] 0b0000 (some .unimplemented) = true := by decide

/-- A preload only advances (95 2.6). -/
theorem test_pld :
    shows (step (start Config.default 0 0b0000 [] 0xF5D1F000))
      [(15, 4)] 0b0000 none = true := by decide

/-- 0x0E000000: decode precedes the condition (95 2.7). -/
theorem test_undecodable111 :
    shows (step (start Config.default 0 0b0000 [] 0x0E000000))
      [(15, 0)] 0b0000 (some .undecodable) = true := by decide

/-- 0xE8BD8000, a block transfer elsewhere (95 2.7). -/
theorem test_undecodable100 :
    shows (step (start Config.default 0 0b0000 [] 0xE8BD8000))
      [(15, 0)] 0b0000 (some .undecodable) = true := by decide

/-- 0xFC000000, condition NV (95 2.7). -/
theorem test_undecodable110 :
    shows (step (start Config.default 0 0b0000 [] 0xFC000000))
      [(15, 0)] 0b0000 (some .undecodable) = true := by decide

/-- The fetch faults in their order, and no wrap in the bounds check (95_test_vectors.md 2.7). -/
theorem test_fetch_faults :
    step (bare 16 2) = .next { bare 16 2 with latch := some .misalignedFetch } ∧
    step (bare 6 4) = .next { bare 6 4 with latch := some .fetchOutOfBounds } ∧
    step State.reset = .next { State.reset with latch := some .fetchOutOfBounds } ∧
    step (bare 0 0xFFFFFFFC) = .next { bare 0 0xFFFFFFFC with latch := some .fetchOutOfBounds } ∧
    step (bare 16 18) = .next { bare 16 18 with latch := some .misalignedFetch } :=
  ⟨rfl, rfl, rfl, rfl, rfl⟩

/-! ### Witnesses: for each statement with hypotheses, concrete states and operands that meet them, clause by clause. -/

/-- A condition the evaluator fails is not passed. -/
theorem fails {c : Cond} {f : Flags} (h : canExecute c f = false) : ¬ Passes c f := by
  cases c <;> simp_all [Passes, canExecute]

/-- A core with every handler and RRX, whose registers are 0 and whose Z and C are set. -/
def ready : State := (State.resetWith Config.arch ⟨0, []⟩).setFlags (nzcv 0b0110)

/-- A core with every handler but no RRX. -/
def noRrx : State := State.resetWith ⟨true, false, AluOp.all⟩ ⟨0, []⟩

/-- A core with no handler at all. -/
def noHandlers : State := State.resetWith ⟨true, true, []⟩ ⟨0, []⟩

/-- Each clause of AluRule has a state that meets its hypotheses: it completes in all three operand forms, at the
rotation by 0 too; it has no handler; operand 2 has no value, by immediate and by register amount 0 and 256; and its
condition fails. -/
def AluWitness (k : AluOp) : Prop :=
  (Passes .eq ready.flags ∧ k ∈ ready.cfg.aluHandlers ∧ RrxReady ready (.imm 15 255) ∧
    RrxReady ready (.shiftImm 0 .ror 15) ∧ RrxReady ready (.shiftReg 15 true .ror 15)) ∧
  (Passes .al noHandlers.flags ∧ k ∉ noHandlers.cfg.aluHandlers ∧ RrxReady noHandlers (.imm 0 0)) ∧
  (Passes .al noRrx.flags ∧ k ∈ noRrx.cfg.aluHandlers ∧ ¬ RrxReady noRrx (.shiftImm 0 .ror 0) ∧
    ¬ RrxReady noRrx (.shiftReg 0 false .ror 0) ∧ ¬ RrxReady (noRrx.set 3 256) (.shiftReg 3 false .ror 0) ∧
    RrxReady noRrx (.shiftImm 1 .ror 0)) ∧
  ¬ Passes .ne ready.flags ∧ ¬ Passes .nv ready.flags

theorem aluWitness (k : AluOp) : AluWitness k := by
  refine ⟨⟨rfl, ?_, trivial, fun _ _ => rfl, fun _ _ => rfl⟩, ⟨trivial, ?_, trivial⟩,
    ⟨trivial, ?_, fun h => absurd (h rfl rfl) (by decide), fun h => absurd (h rfl rfl) (by decide),
      fun h => absurd (h rfl rfl) (by decide), fun _ h => absurd h (by decide)⟩,
    fails rfl, fails rfl⟩
  · cases k <;> decide
  · cases k <;> decide
  · cases k <;> decide

theorem witness_AndWritesConjunction : AluWitness .and := aluWitness .and

theorem witness_EorWritesExclusiveOr : AluWitness .eor := aluWitness .eor

theorem witness_SubWritesDifference : AluWitness .sub := aluWitness .sub

theorem witness_RsbWritesReverseDifference : AluWitness .rsb := aluWitness .rsb

theorem witness_AddWritesSum : AluWitness .add := aluWitness .add

theorem witness_AdcWritesSumWithCarry : AluWitness .adc := aluWitness .adc

theorem witness_SbcWritesDifferenceWithBorrow : AluWitness .sbc := aluWitness .sbc

theorem witness_RscWritesReverseDifferenceWithBorrow : AluWitness .rsc := aluWitness .rsc

theorem witness_TstSetsFlagsOfConjunction : AluWitness .tst := aluWitness .tst

theorem witness_TeqSetsNegativeAndZeroAlways : AluWitness .teq := aluWitness .teq

theorem witness_CmpSetsFlagsOfDifference : AluWitness .cmp := aluWitness .cmp

theorem witness_CmnSetsFlagsOfSum : AluWitness .cmn := aluWitness .cmn

theorem witness_OrrWritesDisjunction : AluWitness .orr := aluWitness .orr

theorem witness_MovWritesOperand2 : AluWitness .mov := aluWitness .mov

theorem witness_BicClearsBits : AluWitness .bic := aluWitness .bic

theorem witness_MvnWritesComplement : AluWitness .mvn := aluWitness .mvn

/-- B 3 at 0x20, a fetchable word. -/
def atBranch : State := start Config.default 0x20 0 [] 0xEA000003

/-- The port shows the word placed at R[15] (00_scope.md R8). -/
theorem test_codeRdata : codeAddr atBranch = 0x20#32 ∧ codeRdata atBranch = 0xEA000003#32 := by decide

theorem witness_StepRunsDecodedInstruction :
    Fetches atBranch ∧
    decodeBytes [atBranch.image.read (atBranch.get 15).toNat, atBranch.image.read ((atBranch.get 15).toNat + 1),
      atBranch.image.read ((atBranch.get 15).toNat + 2), atBranch.image.read ((atBranch.get 15).toNat + 3)] =
      .ok (.b .al 3, []) :=
  ⟨by unfold Fetches; decide, rfl⟩

/-- Both clauses at the edge: one byte short of the word, and an aligned end of the image. -/
theorem witness_FetchFaultsByAlignmentThenBound :
    ((bare 16 18).image.len ≤ 2 ^ 32 ∧ (bare 16 18).latch = none ∧ ((bare 16 18).get 15).toNat % 4 ≠ 0) ∧
    ((bare 7 4).image.len ≤ 2 ^ 32 ∧ (bare 7 4).latch = none ∧ ((bare 7 4).get 15).toNat % 4 = 0 ∧
      (bare 7 4).image.len < ((bare 7 4).get 15).toNat + 4) ∧
    ((bare 16 16).get 15).toNat % 4 = 0 ∧ (bare 16 16).image.len < ((bare 16 16).get 15).toNat + 4 := by decide

theorem witness_HaltedCoreDoesNothing :
    ((bare 16 0).raise .undecodable).image.len ≤ 2 ^ 32 ∧
      ((bare 16 0).raise .undecodable).latch = some .undecodable := by decide

/-- The legal lengths end at 2^32. -/
theorem witness_StepAlwaysCompletes :
    (bare (2 ^ 32) 0).image.len ≤ 2 ^ 32 ∧ 2 ^ 32 < (bare (2 ^ 32 + 1) 0).image.len := by decide

theorem witness_StepNeverChangesImageOrParameters : ∃ t, step atBranch = .next t := ⟨_, rfl⟩

theorem witness_InvariantHoldsAtReset :
    Memory.wf ⟨2 ^ 32, [(0, 1), (0xFFFFFFFF, 0xEA)]⟩ ∧ (2 : Nat) ^ 32 ≤ 2 ^ 32 := by decide

/-- A core at an undecodable word, before its step. -/
def atUndecodable : State := start Config.default 0 0 [] 0xEF000000

theorem witness_StepKeepsInvariant :
    Inv atUndecodable ∧ (∃ t, step atUndecodable = .next t) ∧ Inv (atUndecodable.raise .undecodable) ∧
      ∃ t, step (atUndecodable.raise .undecodable) = .next t :=
  ⟨by decide, ⟨_, rfl⟩, by decide, ⟨_, rfl⟩⟩

theorem witness_FaultsArePrecise :
    atUndecodable.latch = none ∧ step atUndecodable = .next (atUndecodable.raise .undecodable) ∧
      (atUndecodable.raise .undecodable).latch = some .undecodable :=
  ⟨rfl, rfl, rfl⟩

theorem witness_DecodeOfEncodeIsTheInstruction :
    Instr.wellFormed (.ldrReg .le true false true true 15 15 31 .ror 15) = true := by decide

/-- At the last word of the address space too. -/
theorem witness_PlacedWordRunsNext :
    (bare 0 0xFFFFFFFC).image.wf ∧ (bare 0 0xFFFFFFFC).image.len ≤ 2 ^ 32 ∧ (bare 0 0xFFFFFFFC).latch = none ∧
      ((bare 0 0xFFFFFFFC).get 15).toNat % 4 = 0 := by decide

/-- A failed condition, and NV, on instructions of the four classes. -/
theorem witness_FailedConditionOnlyAdvances :
    (isUndecodable (.addImm .ne false 0 0 0 1) = false ∧ ¬ Passes .ne ready.flags) ∧
      (isUndecodable (.bl .nv 3) = false ∧ ¬ Passes .nv ready.flags) ∧ isUndecodable (.pld 0) = false :=
  ⟨⟨rfl, fails rfl⟩, ⟨rfl, fails rfl⟩, rfl⟩

/-- The three patterns in a fetched word; and an instruction run with the latch already set. -/
theorem witness_UndecodableAlwaysFaults :
    (Fetches atUndecodable ∧ (codeRead32 atUndecodable.image 0).extractLsb' 25 3 = 0b111#3) ∧
    (Fetches (start Config.default 0 0 [] 0xE8BD8000) ∧
      (codeRead32 (start Config.default 0 0 [] 0xE8BD8000).image 0).extractLsb' 25 3 = 0b100#3) ∧
    (Fetches (start Config.default 0 0 [] 0xFC000000) ∧
      (codeRead32 (start Config.default 0 0 [] 0xFC000000).image 0).extractLsb' 25 3 = 0b110#3) ∧
    (isUndecodable (.b .al 0) = false ∧ ∃ t, exec (.b .al 0) (ready.raise .undecodable) = .next t ∧
      t.latch = some .undecodable) := by
  refine ⟨⟨by unfold Fetches; decide, by decide⟩, ⟨by unfold Fetches; decide, by decide⟩,
    ⟨by unfold Fetches; decide, by decide⟩, rfl, _, rfl, rfl⟩

/-- The default core has instructions of the list and instructions outside it; the ARCH core meets the other clauses. -/
theorem witness_UnimplementedHasExactlyTheListedCauses :
    State.reset.latch = none ∧ lacksHandler (.addImm .al false 0 0 0 1) State.reset = true ∧
    lacksHandler (.movImm .al false 0 0 0 1) State.reset = false ∧ Passes .al State.reset.flags ∧
    ready.cfg = Config.arch ∧
    Instr.dataProcessing? (.rscShiftReg .al true 1 2 3 false .ror 4) =
      some ⟨.rsc, .al, true, 1, 2, .shiftReg 3 false .ror 4⟩ :=
  ⟨rfl, rfl, rfl, trivial, rfl, rfl⟩

/-- Taken and not taken; aligned. -/
theorem witness_BranchJumps :
    Passes .eq ready.flags ∧ (ready.get 15).toNat % 4 = 0 ∧ ¬ Passes .ne ready.flags :=
  ⟨rfl, rfl, fails rfl⟩

theorem witness_BranchWithLinkJumpsAndLinks : Passes .cs ready.flags ∧ ¬ Passes .cc ready.flags :=
  ⟨rfl, fails rfl⟩

theorem witness_LoadWritesEffectiveAddress :
    (Passes .al ready.flags ∧ RrxReady ready (.shiftImm 0 .ror 15)) ∧
      (Passes .al noRrx.flags ∧ RrxReady noRrx (.shiftImm 0 .lsr 0) ∧ ¬ RrxReady noRrx (.shiftImm 0 .ror 0)) ∧
      ¬ Passes .mi noRrx.flags :=
  ⟨⟨trivial, fun _ _ => rfl⟩, ⟨trivial, fun h => absurd h (by decide), fun h => absurd (h rfl rfl) (by decide)⟩,
    fails rfl⟩

theorem witness_TransfersWithoutHandlerRaiseUnimplemented : Passes .vc ready.flags ∧ ¬ Passes .vs ready.flags :=
  ⟨rfl, fails rfl⟩

/-- A written register, register 15 as destination, a failed condition and a fault. -/
theorem witness_FrameOfWritingAluInstructions :
    AluOp.adc ∈ [AluOp.and, .eor, .sub, .rsb, .add, .adc, .sbc, .rsc, .orr, .mov, .bic, .mvn] ∧
    (∃ t, exec (.dataProcessing .adc .al true 15 0 (.shiftReg 1 false .asr 2)) ready = .next t) ∧
    (∃ t, exec (.dataProcessing .adc .al false 0 15 (.imm 0 1)) ready = .next t) ∧
    (∃ t, exec (.dataProcessing .adc .ne true 0 0 (.imm 0 1)) ready = .next t) ∧
    (∃ t, exec (.dataProcessing .adc .al true 0 0 (.shiftImm 0 .ror 1)) noRrx = .next t) :=
  ⟨by decide, ⟨_, rfl⟩, ⟨_, rfl⟩, ⟨_, rfl⟩, ⟨_, rfl⟩⟩

theorem witness_FrameOfCompareInstructions :
    AluOp.teq ∈ [AluOp.tst, .teq, .cmp, .cmn] ∧
    (∃ t, exec (.dataProcessing .teq .al false 1 0 (.shiftImm 3 .ror 2)) ready = .next t) ∧
    (∃ t, exec (.dataProcessing .cmp .al true 1 15 (.imm 0 1)) ready = .next t) :=
  ⟨by decide, ⟨_, rfl⟩, ⟨_, rfl⟩⟩

theorem witness_FrameOfBranches :
    (∃ t, exec (.b .al 0xFFFFFF) ready = .next t) ∧ ∃ t, exec (.bl .al 0x800000) ready = .next t :=
  ⟨⟨_, rfl⟩, ⟨_, rfl⟩⟩

theorem witness_FrameOfTransfers :
    (∃ t, exec (.ldrReg .al true true false false 1 0 0 .lsl 2) ready = .next t) ∧
    (∃ t, exec (.ldrRegBit4 .al true true false false 1 0 0x18 2) ready = .next t) ∧
    (∃ t, exec (.ldrImm .al true true false false 1 0 4) ready = .next t) ∧
    (∃ t, exec (.str .al true true true false false 1 0 2) ready = .next t) ∧
    ∃ t, exec (.pld 0) ready = .next t :=
  ⟨⟨_, rfl⟩, ⟨_, rfl⟩, ⟨_, rfl⟩, ⟨_, rfl⟩, ⟨_, rfl⟩⟩

/-- An instruction that may not write register 15, and one that may but whose condition fails. -/
theorem witness_ProgramCounterAdvancesByFour :
    (∃ t, exec (.cmpImm .al true 0 15 0 1) ready = .next t ∧ ready.latch = none ∧ t.latch = none) ∧
    mayWrite (.cmpImm .al true 0 15 0 1) 15 = false ∧
    (∃ t, exec (.bl .ne 0) ready = .next t ∧ t.latch = none) ∧ ¬ Passes .ne ready.flags :=
  ⟨⟨_, rfl, rfl, rfl⟩, rfl, ⟨_, rfl, rfl⟩, fails rfl⟩

theorem witness_OnlyDestinationsChange :
    ∃ t, exec (.mvnImm .al false 0 3 0 0) ready = .next t ∧ (3 : Reg) ≠ 15 ∧ t.get 3 ≠ ready.get 3 :=
  ⟨_, rfl, by decide, by decide⟩

/-- CMP R0, #1 on a core of zeros changes N, Z and C; ADDS of two most negative words changes V. -/
theorem witness_OnlyFlagInstructionsChangeFlags :
    (∃ t, exec (.cmpImm .al true 0 0 0 1) ready = .next t ∧ t.flags ≠ ready.flags ∧ t.flags.c ≠ ready.flags.c) ∧
    ∃ t, exec (.addShiftImm .al true 1 0 0 .lsl 1) (ready.set 1 0x80000000) = .next t ∧
      t.flags.v ≠ (ready.set 1 0x80000000).flags.v :=
  ⟨⟨_, rfl, by decide, by decide⟩, _, rfl, by decide⟩

theorem witness_DefaultCoreNeverWritesV : atBranch.cfg = Config.default ∧ ∃ t, step atBranch = .next t :=
  ⟨rfl, _, rfl⟩

theorem witness_IgnoredBitsDoNotMatter : AluOp.cmn ∈ [AluOp.tst, .teq, .cmp, .cmn] := by decide

/-- One instruction that may not write register 15, and the two branches. -/
theorem witness_OnlyWritesOfRegister15BreakAlignment :
    (ready.get 15).toNat % 4 = 0 ∧ (∃ t, exec (.movImm .al false 0 14 0 3) ready = .next t) ∧
    mayWrite (.movImm .al false 0 14 0 3) 15 = false ∧
    (∃ t, exec (.b .al 1) ready = .next t) ∧ ∃ t, exec (.bl .al 1) ready = .next t :=
  ⟨rfl, ⟨_, rfl⟩, rfl, ⟨_, rfl⟩, ⟨_, rfl⟩⟩

/-- BL 3 from register 15 = 0, then MOV PC, LR in the state after it. -/
theorem witness_ReturnThroughLinkSkipsOneInstruction :
    Passes .al ready.flags ∧ ∃ t, exec (.bl .al 3) ready = .next t ∧ t.get 14 = 4#32 ∧
      AluOp.mov ∈ t.cfg.aluHandlers ∧ Passes .eq t.flags :=
  ⟨trivial, _, rfl, by decide, by decide, rfl⟩

theorem witness_CompareThenConditionsCompare :
    Passes .al ready.flags ∧ AluOp.cmp ∈ ready.cfg.aluHandlers ∧ RrxReady ready (.shiftReg 0 false .ror 1) ∧
      ∃ t, exec (.dataProcessing .cmp .al true 15 0 (.shiftReg 0 false .ror 1)) ready = .next t :=
  ⟨trivial, by decide, fun _ _ => rfl, _, rfl⟩

/-- Both clauses, and the amounts where the forms meet: 0, 1, 31, 32, 33 (95_test_vectors.md 2.2). -/
theorem witness_LslMultiplies :
    shift .lsl 0 0xDEADBEEF true = ⟨0xDEADBEEF, true⟩ ∧ 1 ≤ 1 ∧ shift .lsl 1 0x80000000 false = ⟨0, true⟩ ∧
    shift .lsl 31 3 false = ⟨0x80000000, true⟩ ∧ shift .lsl 32 1 false = ⟨0, true⟩ ∧
    shift .lsl 33 0xFFFFFFFF true = ⟨0, false⟩ := by decide

theorem witness_LsrDivides :
    shift .lsr 0 0x80000001 false = ⟨0, true⟩ ∧ 1 ≤ 1 ∧ shift .lsr 1 1 false = ⟨0, true⟩ ∧
    shift .lsr 31 0x80000000 true = ⟨1, false⟩ ∧ shift .lsr 32 0x80000000 false = ⟨0, true⟩ ∧
    shift .lsr 33 0xFFFFFFFF true = ⟨0, false⟩ := by decide

theorem witness_AsrDividesSigned :
    shift .asr 0 0x80000000 false = ⟨0xFFFFFFFF, true⟩ ∧ 1 ≤ 1 ∧ shift .asr 1 0x7FFFFFFE true = ⟨0x3FFFFFFF, false⟩ ∧
    shift .asr 31 0x80000000 false = ⟨0xFFFFFFFF, false⟩ ∧ shift .asr 32 0x7FFFFFFF true = ⟨0, false⟩ ∧
    shift .asr 200 0x80000000 false = ⟨0xFFFFFFFF, true⟩ := by decide

theorem witness_RorRotates :
    1 ≤ 1 ∧ 0 < 32 ∧ 31 < 32 ∧ shift .ror 1 1 false = ⟨0x80000000, true⟩ ∧
    shift .ror 32 0x80000001 false = ⟨0x80000001, true⟩ := by decide

/-- The clauses at 32, 33, 64 and 255. -/
theorem witness_LargeShiftAmounts :
    32 ≤ 255 ∧ 33 ≤ 255 ∧ 64 % 32 = 0 ∧ 255 % 32 ≠ 0 ∧ 255 ≤ 255 ∧
    shift .ror 64 0x80000001 false = ⟨0x80000001, true⟩ ∧ shift .ror 255 1 false = ⟨2, false⟩ := by decide

/-- Without RRX, with a register amount of 0 from 256; and with it. -/
theorem witness_RotateByZeroIsRrxOrUnimplemented :
    noRrx.cfg.rrxImplemented = false ∧ Passes .al noRrx.flags ∧ registerAmount (noRrx.set 3 256) 3 = 0 ∧
    ready.cfg.rrxImplemented = true ∧ Passes .eq ready.flags ∧ AluOp.mov ∈ ready.cfg.aluHandlers ∧ (14 : Reg) ≠ 15 :=
  ⟨rfl, trivial, rfl, rfl, rfl, by decide, by decide⟩

end Sys2Proof.Tests
end

section
/-! Proofs for 00_scope.md: who can change V (42_data_processing.md R161, R162), and the host's set-PC. -/

namespace Sys2Proof.Machine

open Sys2Proof.Claims

/-- The eight operations of 42_data_processing.md R161 take their flags as logical ones. -/
theorem aluCompute_kind_of_isLogical {k : AluOp} (h : isLogical k = true) (a b : Word) (cin : Bool) :
    (aluCompute k a b cin).kind = .logical := by
  cases k with
  | and | eor | tst | teq | orr | mov | bic | mvn => rfl
  | sub | rsb | add | adc | sbc | rsc | cmp | cmn => cases h

/-- With S = 0 no operation writes V, not even TEQ (42_data_processing.md R173). -/
theorem flagsAfter_v_of_not_update (k : AluOp) (out : AluOut) (sc : Bool) (f : Flags) :
    (flagsAfter k false out sc f).v = f.v := by
  cases hk : writesNzAlways k <;> simp [flagsAfter, hk, withNz]

/-- The flag update of a logical result keeps V, whatever S is (42_data_processing.md R161, R173). -/
theorem flagsAfter_v_of_logical {out : AluOut} (h : out.kind = .logical) (k : AluOp) (sf : Bool) (sc : Bool)
    (f : Flags) : (flagsAfter k sf out sc f).v = f.v := by
  cases sf with
  | true => simp [flagsAfter, h, withNz]
  | false => exact flagsAfter_v_of_not_update k out sc f

/-- An effect that changes V is that of an arithmetic operation with a handler and S = 1. -/
theorem Effect.arithmetic_of_v_ne {i : Instr} {s t : State} (h : Effect i s t) (hv : t.flags.v ≠ s.flags.v) :
    ∃ d, i.dataProcessing? = some d ∧ d.op ∈ s.cfg.aluHandlers ∧ d.setFlags = true ∧ isLogical d.op = false := by
  cases h with
  | @alu _ d _ b hd hk hb =>
    rw [commitAlu_flags] at hv
    refine ⟨d, hd, hk, ?_, ?_⟩
    · by_contra hs
      rw [Bool.not_eq_true] at hs
      exact hv (hs ▸ flagsAfter_v_of_not_update ..)
    · by_contra hl
      rw [Bool.not_eq_false] at hl
      exact hv (flagsAfter_v_of_logical (aluCompute_kind_of_isLogical hl ..) ..)
  | branch | link | load => exact absurd rfl hv

/-- An instruction that changes V is an arithmetic operation with a handler and S = 1. -/
theorem exec_arithmetic_of_v_ne {i : Instr} {s t : State} (h : exec i s = .next t) (hv : t.flags.v ≠ s.flags.v) :
    ∃ d, i.dataProcessing? = some d ∧ d.op ∈ s.cfg.aluHandlers ∧ d.setFlags = true ∧ isLogical d.op = false := by
  rcases exec_cases i s with ⟨-, e⟩ | ⟨-, -, e⟩ | ⟨-, -, -, e⟩ | ⟨-, -, -, u, hu, e⟩ <;> cases e.symm.trans h
  · exact absurd rfl hv
  · exact absurd rfl hv
  · exact absurd rfl hv
  · exact hu.arithmetic_of_v_ne hv

/-- A step that changes V runs an arithmetic operation that has a handler. -/
theorem step_arithmetic_of_v_ne {s t : State} (h : step s = .next t) (hv : t.flags.v ≠ s.flags.v) :
    ∃ k ∈ s.cfg.aluHandlers, isLogical k = false := by
  rcases step_cases s with ⟨-, e⟩ | ⟨-, -, e⟩ | ⟨-, -, -, e⟩ | ⟨-, -, -, -, e⟩ | ⟨-, -, -, -, e⟩
  case inr.inr.inr.inr =>
    obtain ⟨d, -, hk, -, hl⟩ := exec_arithmetic_of_v_ne (e.symm.trans h) hv
    exact ⟨d.op, hk, hl⟩
  case inl => cases e.symm.trans h
  all_goals
    cases e.symm.trans h
    exact absurd rfl hv

/-- The document's version has handlers for logical operations only: TEQ and MOV (00_scope.md R5). -/
theorem default_aluHandlers_isLogical : ∀ k ∈ Config.default.aluHandlers, isLogical k = true := by decide

end Sys2Proof.Machine

namespace Sys2Proof.Proofs

open Sys2Proof.Machine Sys2Proof.Claims

/-- Settles O48: a step that changes V runs an arithmetic operation with a handler, and the default core has none. -/
theorem defaultCoreNeverWritesV : Obligations.DefaultCoreNeverWritesV := by
  unfold Obligations.DefaultCoreNeverWritesV
  intro s t hcfg hstep
  by_contra hv
  obtain ⟨k, hk, harith⟩ := step_arithmetic_of_v_ne hstep hv
  have hlog : isLogical k = true := default_aluHandlers_isLogical k (hcfg ▸ hk)
  exact Bool.false_ne_true (harith.symm.trans hlog)

/-- Settles O6: set-PC is a plain write of register 15, so the register file's rules apply. -/
theorem hostSetPcWritesOnlyRegister15 : Obligations.HostSetPcWritesOnlyRegister15 := by
  unfold Obligations.HostSetPcWritesOnlyRegister15
  intro s v
  refine ⟨s.set 15 v, rfl, get_set_same s 15 v, ?_, set_flags s 15 v, ?_⟩
  · intro j hj
    exact get_set_ne s 15 j v hj
  · exact ⟨set_latch s 15 v, set_image s 15 v, set_cfg s 15 v⟩

end Sys2Proof.Proofs
end

section
/-! Proofs for 10_state.md: which instructions write which registers (R23), register 15 (R26) and the flags (R30), and
the reset values (R35). -/

namespace Sys2Proof.Machine

open Sys2Proof.Claims

/-- The condition evaluator decides the condition table of 40_step_and_condition.md R116. -/
theorem canExecute_iff_passes (c : Cond) (f : Flags) : canExecute c f = true ↔ Passes c f := by
  cases c <;> simp [canExecute, Passes]

/-- A state exec answers is a fault's, the bare Advance of a failed condition, or an effect followed by the Advance. -/
theorem exec_next_cases {i : Instr} {s t : State} (h : exec i s = .next t) :
    (∃ f, t = s.raise f) ∨ (¬ Passes i.cond s.flags ∧ t = s.advance) ∨
    (Passes i.cond s.flags ∧ ∃ u, Effect i s u ∧ t = u.advance) := by
  rcases exec_cases i s with ⟨-, e⟩ | ⟨-, hc, e⟩ | ⟨-, -, -, e⟩ | ⟨-, hc, -, u, hu, e⟩ <;> cases e.symm.trans h
  · exact .inl ⟨_, rfl⟩
  · refine .inr (.inl ⟨?_, rfl⟩)
    rw [← canExecute_iff_passes, hc]
    exact Bool.false_ne_true
  · exact .inl ⟨_, rfl⟩
  · exact .inr (.inr ⟨(canExecute_iff_passes ..).1 hc, u, hu, rfl⟩)

/-- A data-processing instruction may write its Rd, unless its operation writes none (42_data_processing.md R163). -/
theorem mayWrite_of_dataProcessing {i : Instr} {d : DataProcessing} (hd : i.dataProcessing? = some d) (j : Reg) :
    mayWrite i j = (writesRd d.op && (j == d.rd)) := by
  simp [mayWrite, hd]

/-- The frame of an effect: a register the instruction may not write is kept (10_state.md R23). -/
theorem Effect.get_of_not_mayWrite {i : Instr} {s u : State} (h : Effect i s u) {j : Reg}
    (hj : mayWrite i j = false) : u.get j = s.get j := by
  cases h with
  | alu hd =>
    rw [mayWrite_of_dataProcessing hd] at hj
    rw [commitAlu_get, if_neg (by simpa using hj)]
  | branch =>
    have hne : j ≠ 15 := by simpa [mayWrite, Instr.dataProcessing?] using hj
    exact get_set_ne _ _ _ _ hne
  | link =>
    obtain ⟨h14, h15⟩ : j ≠ 14 ∧ j ≠ 15 := by simpa [mayWrite, Instr.dataProcessing?] using hj
    rw [get_set_ne _ _ _ _ h15, get_set_ne _ _ _ _ h14]
  | @load _ _ _ _ _ _ rd =>
    have hne : j ≠ rd := by simpa [mayWrite, Instr.dataProcessing?] using hj
    exact get_set_ne _ _ _ _ hne

/-- An effect that changes a flag is that of an instruction that may write flags (10_state.md R30). -/
theorem Effect.mayWriteFlags_of_flags_ne {i : Instr} {s u : State} (h : Effect i s u) (hf : u.flags ≠ s.flags) :
    mayWriteFlags i = true := by
  cases h with
  | @alu _ d _ _ hd =>
    by_contra hm
    obtain ⟨hs, hk⟩ : d.setFlags = false ∧ writesNzAlways d.op = false := by simpa [mayWriteFlags, hd] using hm
    rw [commitAlu_flags, hs] at hf
    exact hf (flagsAfter_keep hk ..)
  | branch | link | load => exact absurd rfl hf

/-- With S = 0 no operation writes C, not even TEQ (42_data_processing.md R173). -/
theorem flagsAfter_c_of_not_update (k : AluOp) (out : AluOut) (sc : Bool) (f : Flags) :
    (flagsAfter k false out sc f).c = f.c := by
  cases hk : writesNzAlways k <;> simp [flagsAfter, hk, withNz]

/-- An effect that changes C is that of a data-processing instruction with S = 1. -/
theorem Effect.setFlags_of_c_ne {i : Instr} {s u : State} (h : Effect i s u) (hc : u.flags.c ≠ s.flags.c) :
    ∃ d, i.dataProcessing? = some d ∧ d.setFlags = true := by
  cases h with
  | @alu _ d _ _ hd =>
    refine ⟨d, hd, ?_⟩
    by_contra hs
    rw [commitAlu_flags, Bool.eq_false_of_not_eq_true hs] at hc
    exact hc (flagsAfter_c_of_not_update ..)
  | branch | link | load => exact absurd rfl hc

/-- An instruction that changes the flags register executes, and its effect changes it. -/
theorem exec_effect_of_flags_ne {i : Instr} {s t : State} (h : exec i s = .next t) (hf : t.flags ≠ s.flags) :
    Passes i.cond s.flags ∧ ∃ u, Effect i s u ∧ u.flags = t.flags := by
  rcases exec_next_cases h with ⟨f, rfl⟩ | ⟨-, rfl⟩ | ⟨hp, u, hu, rfl⟩
  · exact absurd (raise_flags s f) hf
  · exact absurd (advance_flags s) hf
  · exact ⟨hp, u, hu, rfl⟩

/-- Every register is 0 after reset (10_state.md R35). -/
@[simp] theorem resetWith_get (cfg : Config) (image : Memory) (j : Reg) : (State.resetWith cfg image).get j = 0#32 := by
  simp [State.resetWith, State.get]

/-- A core reset with a canonical image of legal length is sound: its latch is clear, so there is nothing to explain. -/
theorem resetWith_inv {cfg : Config} {image : Memory} (hwf : image.wf) (hlen : image.len ≤ 2 ^ 32) :
    Inv (State.resetWith cfg image) :=
  ⟨hwf, hlen, rfl⟩

end Sys2Proof.Machine

namespace Sys2Proof.Proofs

open Sys2Proof.Machine Sys2Proof.Claims

/-- Settles O45: register 15 is advanced on top of what the effect left there, which is X where it may not write 15. -/
theorem programCounterAdvancesByFour : Obligations.ProgramCounterAdvancesByFour := by
  unfold Obligations.ProgramCounterAdvancesByFour
  intro i s t h _ ht hkeep
  rcases exec_next_cases h with ⟨f, rfl⟩ | ⟨-, rfl⟩ | ⟨hp, u, hu, rfl⟩
  · cases ht
  · exact advance_pc s
  · have hw : mayWrite i 15 = false := hkeep.resolve_right (not_not_intro hp)
    rw [advance_pc, hu.get_of_not_mayWrite hw]

/-- Settles O46: a fault and the Advance keep the registers below 15, and an effect keeps those it may not write. -/
theorem onlyDestinationsChange : Obligations.OnlyDestinationsChange := by
  unfold Obligations.OnlyDestinationsChange
  intro i s t j h hj hne
  rcases exec_next_cases h with ⟨f, rfl⟩ | ⟨-, rfl⟩ | ⟨hp, u, hu, rfl⟩
  · exact absurd (raise_get s j f) hne
  · exact absurd (advance_get s j hj) hne
  · rw [advance_get u j hj] at hne
    refine ⟨hp, ?_⟩
    by_contra hw
    exact hne (hu.get_of_not_mayWrite (Bool.eq_false_of_not_eq_true hw))

/-- Settles O47: only an effect changes flags; which effect changes which flag is said flag by flag. -/
theorem onlyFlagInstructionsChangeFlags : Obligations.OnlyFlagInstructionsChangeFlags := by
  unfold Obligations.OnlyFlagInstructionsChangeFlags
  intro i s t h
  refine ⟨fun hf => ?_, fun hc => ?_, fun hv => ?_⟩
  · obtain ⟨hp, u, hu, hut⟩ := exec_effect_of_flags_ne h hf
    exact ⟨hp, hu.mayWriteFlags_of_flags_ne (hut ▸ hf)⟩
  · obtain ⟨-, u, hu, hut⟩ := exec_effect_of_flags_ne h (fun e => hc (congrArg Flags.c e))
    exact hu.setFlags_of_c_ne (hut ▸ hc)
  · obtain ⟨d, hd, -, hs, hl⟩ := exec_arithmetic_of_v_ne h hv
    exact ⟨d, hd, hs, hl⟩

/-- Settles O5: both forms of reset are `State.resetWith`, whose registers read 0. -/
theorem resetGivesTheResetValues : Obligations.ResetGivesTheResetValues := by
  unfold Obligations.ResetGivesTheResetValues
  refine ⟨fun s image i => ⟨?_, rfl, rfl, rfl, rfl⟩, fun i => ?_, rfl, rfl⟩
  · exact resetWith_get s.cfg image i
  · exact resetWith_get Config.default ⟨0, []⟩ i

/-- Settles O8: State.reset is the reset with the empty image. -/
theorem invariantHoldsAtReset : Obligations.InvariantHoldsAtReset := by
  unfold Obligations.InvariantHoldsAtReset
  refine ⟨?_, fun cfg image hwf hlen => resetWith_inv hwf hlen⟩
  exact resetWith_inv empty_wf (Nat.zero_le _)

end Sys2Proof.Proofs
end

section
/-! Proofs for 20_memory.md: the word of four bytes is little-endian (R51), and no step changes the code image (R59). -/

namespace Sys2Proof

/-- Little-endian order (20_memory.md R51): the byte at the highest offset is the most significant. -/
theorem wordOfBytes_eq_append (b0 b1 b2 b3 : Byte) : wordOfBytes b0 b1 b2 b3 = b3 ++ b2 ++ b1 ++ b0 := by
  have h := BitVec.setWidth_append_append_append_eq_shiftLeft_setWidth_or
    (w'''' := 32) (b := b3) (b' := b2) (b'' := b1) (b''' := b0)
  simpa [wordOfBytes, place] using h.symm

/-- A concatenation as a number: the upper part is worth 2^w times its own value. -/
theorem toNat_append_eq_mul_add {v w : Nat} (x : BitVec v) (y : BitVec w) :
    (x ++ y).toNat = x.toNat * 2 ^ w + y.toNat := by
  rw [BitVec.toNat_append, ← Nat.shiftLeft_add_eq_or_of_lt y.isLt, Nat.shiftLeft_eq]

/-- The word of four bytes as a number (20_memory.md R51). -/
theorem wordOfBytes_toNat (b0 b1 b2 b3 : Byte) : (wordOfBytes b0 b1 b2 b3).toNat =
    b0.toNat + b1.toNat * 2 ^ 8 + b2.toNat * 2 ^ 16 + b3.toNat * 2 ^ 24 := by
  rw [wordOfBytes_eq_append, toNat_append_eq_mul_add, toNat_append_eq_mul_add, toNat_append_eq_mul_add]
  omega

end Sys2Proof

namespace Sys2Proof.Machine

/-- Whatever exec answers has the image and the parameters of before: a fault and the Advance touch neither. -/
theorem exec_next_image_cfg {i : Instr} {s t : State} (h : exec i s = .next t) :
    t.image = s.image ∧ t.cfg = s.cfg := by
  rcases exec_next_cases h with ⟨f, rfl⟩ | ⟨-, rfl⟩ | ⟨-, u, hu, rfl⟩
  · exact ⟨raise_image s f, raise_cfg s f⟩
  · exact ⟨advance_image s, advance_cfg s⟩
  · obtain ⟨-, himage, hcfg⟩ := hu.rest
    exact ⟨himage, hcfg⟩

end Sys2Proof.Machine

namespace Sys2Proof.Proofs

open Sys2Proof.Machine

/-- Settles O7: a step that answers keeps a halted core, raises a fetch fault, or is exec of the decoded instruction. -/
theorem stepNeverChangesImageOrParameters : Obligations.StepNeverChangesImageOrParameters := by
  unfold Obligations.StepNeverChangesImageOrParameters
  intro s t h
  rcases step_cases s with ⟨-, e⟩ | ⟨-, -, e⟩ | ⟨-, -, -, e⟩ | ⟨-, -, -, -, e⟩ | ⟨-, -, -, -, e⟩
  · cases e.symm.trans h
  · cases e.symm.trans h
    exact ⟨rfl, rfl⟩
  · cases e.symm.trans h
    exact ⟨raise_image s _, raise_cfg s _⟩
  · cases e.symm.trans h
    exact ⟨raise_image s _, raise_cfg s _⟩
  · exact exec_next_image_cfg (e.symm.trans h)

/-- Settles O15: CodeRead32 is the little-endian word of its four bytes. -/
theorem codeWordIsLittleEndian : Obligations.CodeWordIsLittleEndian := by
  unfold Obligations.CodeWordIsLittleEndian
  intro m a
  exact wordOfBytes_toNat (m.read a) (m.read (a + 1)) (m.read (a + 2)) (m.read (a + 3))

end Sys2Proof.Proofs
end

section
/-! Proofs for 30_encoding.md: the round trips of decoder and encoder (R72 to R82, R87), the opcode table (R90), words
written out (R85), and the bits the hardware ignores (R84). The encoder lays fields side by side and the decoder reads
them, so the round trips are the laws of `field` and `place`, applied to one format at a time. -/

namespace Sys2Proof

/-- A field of two words laid over each other. -/
@[simp] theorem field_or (v w : Word) (lo n : Nat) : field (v ||| w) lo n = field v lo n ||| field w lo n :=
  BitVec.extractLsb'_or

/-- A placed field reads back at its own place. -/
@[simp] theorem field_place_self {lo n : Nat} (h : lo + n ≤ 32) (v : BitVec n) : field (place lo v) lo n = v := by
  apply BitVec.eq_of_getLsbD_eq
  intro i hi
  have : lo + i < 32 := by omega
  simp [hi, this]

/-- Below a placed field all bits are 0. -/
@[simp] theorem field_place_below {lo n : Nat} (v : BitVec n) {lo' n' : Nat} (h : lo' + n' ≤ lo) :
    field (place lo v) lo' n' = 0#n' := by
  apply BitVec.eq_of_getLsbD_eq
  intro i hi
  have : lo' + i < lo := by omega
  simp [this]

/-- Above a placed field all bits are 0. -/
@[simp] theorem field_place_above {lo n : Nat} (v : BitVec n) {lo' n' : Nat} (h : lo + n ≤ lo') :
    field (place lo v) lo' n' = 0#n' := by
  apply BitVec.eq_of_getLsbD_eq
  intro i hi
  have : n ≤ lo' + i - lo := by omega
  simp [BitVec.getLsbD_of_ge v _ this]

/-- A field of a field is a field of the word. -/
theorem field_field (w : Word) {lo k m n : Nat} (h : k + m ≤ n) :
    (field w lo n).extractLsb' k m = field w (lo + k) m := by
  apply BitVec.eq_of_getLsbD_eq
  intro i hi
  have : k + i < n := by omega
  simp [hi, this, Nat.add_assoc]

/-- Placing a concatenation places its two parts side by side. -/
theorem place_append {m n : Nat} (lo : Nat) (x : BitVec m) (y : BitVec n) :
    place lo (x ++ y) = place (lo + n) x ||| place lo y := by
  apply BitVec.eq_of_getLsbD_eq
  intro i hi
  rcases Nat.lt_or_ge i lo with hlo | hlo
  · have : i < lo + n := by omega
    simp [hlo, this]
  · obtain ⟨j, rfl⟩ := Nat.exists_eq_add_of_le hlo
    by_cases hj : j < n
    · simp [hi, hj, BitVec.getLsbD_append]
    · simp [hi, hj, BitVec.getLsbD_append, Nat.add_sub_add_left, BitVec.getLsbD_of_ge y j (by omega)]

/-- Two adjacent fields of one word, each in its place, are one longer field in its place. -/
@[simp] theorem place_field_join (w : Word) {hi lo m n : Nat} (h : hi = lo + n) :
    place hi (field w hi m) ||| place lo (field w lo n) = place lo (field w lo (m + n)) := by
  subst h
  rw [← place_append]
  exact congrArg (place lo) (BitVec.extractLsb'_append_extractLsb'_eq_extractLsb' rfl)

/-- The field of all 32 bits is the word. -/
@[simp] theorem place_field_all (w : Word) : place 0 (field w 0 32) = w := by
  simp [place, field]

/-- A single bit is the field of length 1. -/
theorem ofBool_getLsbD (w : Word) (i : Nat) : BitVec.ofBool (w.getLsbD i) = field w i 1 := by
  apply BitVec.eq_of_getLsbD_eq
  intro j hj
  obtain rfl : j = 0 := by omega
  simp

/-- The same for a bit read by index. -/
theorem ofBool_getElem (w : Word) (i : Nat) (h : i < 32) : BitVec.ofBool w[i] = field w i 1 := by
  rw [← BitVec.getLsbD_eq_getElem, ofBool_getLsbD]

/-- The field of a bit that is set. -/
theorem field_of_bit {w : Word} {i : Nat} (h : w.getLsbD i = true) : field w i 1 = 0b1#1 := by
  rw [← ofBool_getLsbD, h]
  rfl

@[simp] theorem toBits_condField (w : Word) : (condField w).toBits = field w 28 4 := by
  simp [condField]

@[simp] theorem regToBits_regField (w : Word) (lo : Nat) : regToBits (regField w lo) = field w lo 4 := rfl

/-! ### The decoder, one lemma per class (30_encoding.md R72, R82) -/

/-- Bits 27-26 as a part of bits 27-25. -/
theorem field_26_2 (w : Word) : field w 26 2 = (field w 25 3).extractLsb' 1 2 :=
  (field_field w (lo := 25) (k := 1) (n := 3) (by decide)).symm

/-- Every word is in one of six classes: data processing, transfer, branch, or an undecodable pattern. -/
theorem opcode_classes (w : Word) : field w 26 2 = 0b00#2 ∨ field w 26 2 = 0b01#2 ∨ field w 25 3 = 0b101#3 ∨
    field w 25 3 = 0b100#3 ∨ field w 25 3 = 0b110#3 ∨ field w 25 3 = 0b111#3 := by
  rw [field_26_2]
  generalize field w 25 3 = v
  revert v
  decide

theorem decode_eq_branch {w : Word} (h : field w 25 3 = 0b101#3) :
    decode w = if w.getLsbD 24 then .bl (condField w) (field w 0 24) else .b (condField w) (field w 0 24) := by
  simp [decode, h]

theorem decode_eq_decodeDataProcessing {w : Word} (h : field w 26 2 = 0b00#2) :
    decode w = decodeDataProcessing w := by
  have hb : field w 25 3 ≠ 0b101#3 := by
    intro e
    simp [field_26_2, e] at h
  simp [decode, h, hb]

theorem decode_eq_decodeTransfer {w : Word} (h : field w 26 2 = 0b01#2) : decode w = decodeTransfer w := by
  have hb : field w 25 3 ≠ 0b101#3 := by
    intro e
    simp [field_26_2, e] at h
  simp [decode, h, hb]

theorem decode_eq_undecodable100 {w : Word} (h : field w 25 3 = 0b100#3) :
    decode w = .undecodable100 (condField w) (field w 0 25) := by
  simp [decode, field_26_2, h]

theorem decode_eq_undecodable110 {w : Word} (h : field w 25 3 = 0b110#3) :
    decode w = .undecodable110 (condField w) (field w 0 25) := by
  simp [decode, field_26_2, h]

theorem decode_eq_undecodable111 {w : Word} (h : field w 25 3 = 0b111#3) :
    decode w = .undecodable111 (condField w) (field w 0 25) := by
  simp [decode, field_26_2, h]

/-! ### The data-processing constructors, all 48 at once -/

@[simp] theorem encode_dataProcessing (k : AluOp) (c : Cond) (sf : Bool) (rn rd : Reg) (o : Operand2) :
    encode (.dataProcessing k c sf rn rd o) = encodeDataProcessing k c sf rn rd o := by
  cases k <;> cases o <;> rfl

@[simp] theorem wellFormed_dataProcessing (k : AluOp) (c : Cond) (sf : Bool) (rn rd : Reg) (o : Operand2) :
    (Instr.dataProcessing k c sf rn rd o).wellFormed = true := by
  cases k <;> cases o <;> rfl

theorem row_dataProcessing_imm (k : AluOp) (c : Cond) (sf : Bool) (rn rd : Reg) (rotate : BitVec 4)
    (imm8 : BitVec 8) : (Instr.dataProcessing k c sf rn rd (.imm rotate imm8)).row =
      ⟨0x02000000#32 ||| place 21 k.toBits, 0x0FE00000#32, false⟩ := by
  cases k <;> rfl

theorem row_dataProcessing_shiftImm (k : AluOp) (c : Cond) (sf : Bool) (rn rd : Reg) (amount : BitVec 5)
    (ty : ShiftType) (rm : Reg) : (Instr.dataProcessing k c sf rn rd (.shiftImm amount ty rm)).row =
      ⟨place 21 k.toBits, 0x0FE00010#32, false⟩ := by
  cases k <;> rfl

theorem row_dataProcessing_shiftReg (k : AluOp) (c : Cond) (sf : Bool) (rn rd rs : Reg) (bit7 : Bool)
    (ty : ShiftType) (rm : Reg) : (Instr.dataProcessing k c sf rn rd (.shiftReg rs bit7 ty rm)).row =
      ⟨0x00000010#32 ||| place 21 k.toBits, 0x0FE00010#32, false⟩ := by
  cases k <;> rfl

/-! ### Decoding what was encoded (30_encoding.md R87) -/

/-- Operand 2 lies in bits 11-0. -/
@[simp] theorem field_encodeOperand2 (o : Operand2) {lo n : Nat} (h : 12 ≤ lo) :
    field (encodeOperand2 o) lo n = 0#n := by
  cases o <;> simp (disch := omega) [encodeOperand2, encodeShiftedReg]

theorem decodeOperand2_encodeDataProcessing (k : AluOp) (c : Cond) (sf : Bool) (rn rd : Reg) (o : Operand2) :
    decodeOperand2 (encodeDataProcessing k c sf rn rd o) = o := by
  cases o <;> simp [decodeOperand2, encodeDataProcessing, encodeOperand2, encodeShiftedReg, Operand2.isImm, regField]

theorem decode_encodeDataProcessing (k : AluOp) (c : Cond) (sf : Bool) (rn rd : Reg) (o : Operand2) :
    decode (encodeDataProcessing k c sf rn rd o) = .dataProcessing k c sf rn rd o := by
  have hclass : field (encodeDataProcessing k c sf rn rd o) 26 2 = 0b00#2 := by simp [encodeDataProcessing]
  have hS : (encodeOperand2 o)[20] = false := by
    cases o <;> simp [encodeOperand2, encodeShiftedReg]
  rw [decode_eq_decodeDataProcessing hclass, decodeDataProcessing, decodeOperand2_encodeDataProcessing]
  simp [encodeDataProcessing, condField, regField, hS]

theorem decode_encodeBranch (c : Cond) (l : Bool) (offset24 : BitVec 24) :
    decode (encodeBranch c l offset24) = if l then .bl c offset24 else .b c offset24 := by
  have hclass : field (encodeBranch c l offset24) 25 3 = 0b101#3 := by simp [encodeBranch]
  rw [decode_eq_branch hclass]
  simp [encodeBranch, condField]

/-- A transfer needs its condition: with 1111 it would read back as a preload (R81). -/
theorem decode_encode (i : Instr) (hwf : i.wellFormed = true) : decode (encode i) = i := by
  rcases hd : i.dataProcessing? with _ | d
  · cases i with
    | b c offset24 => exact decode_encodeBranch c false offset24
    | bl c offset24 => exact decode_encodeBranch c true offset24
    | ldrReg | ldrRegBit4 | ldrImm | str =>
      simp only [Instr.wellFormed, bne_iff_ne] at hwf
      rw [decode_eq_decodeTransfer (by simp [encode, encodeTransfer, encodeShiftedReg])]
      simp [decodeTransfer, encode, encodeTransfer, encodeShiftedReg, condField, regField, hwf]
    | pld rest =>
      rw [decode_eq_decodeTransfer (by simp [encode])]
      simp [decodeTransfer, encode, condField, Cond.ofBits]
    | undecodable100 c rest =>
      rw [decode_eq_undecodable100 (by simp [encode])]
      simp [encode, condField]
    | undecodable110 c rest =>
      rw [decode_eq_undecodable110 (by simp [encode])]
      simp [encode, condField]
    | undecodable111 c rest =>
      rw [decode_eq_undecodable111 (by simp [encode])]
      simp [encode, condField]
    | _ => cases hd
  · rw [Machine.eq_dataProcessing hd, encode_dataProcessing, decode_encodeDataProcessing]

/-! ### Encoding what was decoded: the fields of a word, read by a format and joined again, are the word -/

@[simp] theorem isImm_decodeOperand2 (w : Word) : (decodeOperand2 w).isImm = w.getLsbD 25 := by
  unfold decodeOperand2
  split_ifs with hI h4 <;> simp only [Operand2.isImm, hI]

theorem encodeShiftedReg_fields (w : Word) :
    encodeShiftedReg (field w 7 5) (ShiftType.ofBits (field w 5 2)) (w.getLsbD 4) (regField w 0) =
      place 0 (field w 0 12) := by
  simp [encodeShiftedReg, ofBool_getElem]

theorem encodeOperand2_decodeOperand2 (w : Word) : encodeOperand2 (decodeOperand2 w) = place 0 (field w 0 12) := by
  unfold decodeOperand2
  split_ifs with hI h4
  · simp [encodeOperand2]
  · simp [encodeOperand2, ofBool_getElem, ← field_of_bit h4]
  · simpa only [h4, encodeOperand2] using encodeShiftedReg_fields w

theorem encodeDataProcessing_fields {w : Word} (h : field w 26 2 = 0b00#2) :
    encodeDataProcessing (AluOp.ofBits (field w 21 4)) (condField w) (w.getLsbD 20) (regField w 16) (regField w 12)
      (decodeOperand2 w) = w := by
  simp [encodeDataProcessing, ← h, encodeOperand2_decodeOperand2, ofBool_getElem]

theorem encodeTransfer_fields {w : Word} (h : field w 26 2 = 0b01#2) :
    encodeTransfer (condField w) (w.getLsbD 25) (w.getLsbD 24) (w.getLsbD 23) (w.getLsbD 22) (w.getLsbD 21)
      (w.getLsbD 20) (regField w 16) (regField w 12) (place 0 (field w 0 12)) = w := by
  simp [encodeTransfer, ← h, ofBool_getElem]

theorem encodeBranch_fields {w : Word} (h : field w 25 3 = 0b101#3) :
    encodeBranch (condField w) (w.getLsbD 24) (field w 0 24) = w := by
  simp [encodeBranch, ← h, ofBool_getElem]

theorem undecodable_fields {w : Word} {v : BitVec 3} (h : field w 25 3 = v) :
    place 28 (condField w).toBits ||| place 25 v ||| place 0 (field w 0 25) = w := by
  simp [← h]

theorem encode_decodeTransfer {w : Word} (h : field w 26 2 = 0b01#2) : encode (decodeTransfer w) = w := by
  have hw := encodeTransfer_fields h
  unfold decodeTransfer
  split_ifs with hc hl hi h4
  · have hf : 0b1111#4 = field w 28 4 := by
      rw [← toBits_condField, hc]
      rfl
    simp [encode, ← h, hf]
  · rw [Bool.not_eq_true'] at hl
    rw [hl] at hw
    exact hw
  · rw [Bool.not_eq_true', Bool.not_eq_false] at hl
    rw [Bool.not_eq_true'] at hi
    rw [hl, hi] at hw
    exact hw
  · rw [Bool.not_eq_true', Bool.not_eq_false] at hl hi
    have ho : place 5 (field w 5 7) ||| place 4 0b1#1 ||| place 0 (field w 0 4) = place 0 (field w 0 12) := by
      simp [← field_of_bit h4]
    rw [hl, hi, ← ho] at hw
    exact hw
  · rw [Bool.not_eq_true', Bool.not_eq_false] at hl hi
    rw [Bool.not_eq_true] at h4
    rw [hl, hi, ← encodeShiftedReg_fields, h4] at hw
    exact hw

theorem encode_decode (w : Word) : encode (decode w) = w := by
  rcases opcode_classes w with h | h | h | h | h | h
  · rw [decode_eq_decodeDataProcessing h, decodeDataProcessing, encode_dataProcessing, encodeDataProcessing_fields h]
  · rw [decode_eq_decodeTransfer h, encode_decodeTransfer h]
  · have hw := encodeBranch_fields h
    rw [decode_eq_branch h]
    cases hl : w.getLsbD 24 <;> rw [hl] at hw <;> exact hw
  · rw [decode_eq_undecodable100 h]
    exact undecodable_fields h
  · rw [decode_eq_undecodable110 h]
    exact undecodable_fields h
  · rw [decode_eq_undecodable111 h]
    exact undecodable_fields h

/-- The decoder gives a load or store only after it has excluded the condition 1111 (R81). -/
theorem wellFormed_decodeTransfer (w : Word) : (decodeTransfer w).wellFormed = true := by
  unfold decodeTransfer
  split_ifs with hc hl hi h4 <;> simp [Instr.wellFormed, hc]

theorem wellFormed_decode (w : Word) : (decode w).wellFormed = true := by
  rcases opcode_classes w with h | h | h | h | h | h
  · rw [decode_eq_decodeDataProcessing h, decodeDataProcessing, wellFormed_dataProcessing]
  · rw [decode_eq_decodeTransfer h, wellFormed_decodeTransfer]
  · rw [decode_eq_branch h]
    split_ifs <;> rfl
  · rw [decode_eq_undecodable100 h]
    rfl
  · rw [decode_eq_undecodable110 h]
    rfl
  · rw [decode_eq_undecodable111 h]
    rfl

/-! ### The opcode table (30_encoding.md R90) -/

open Laws.SelectsRow in
theorem selects_row_dataProcessing (k : AluOp) (c : Cond) (sf : Bool) (rn rd : Reg) (o : Operand2) :
    (Instr.dataProcessing k c sf rn rd o).row.selects (encodeDataProcessing k c sf rn rd o) = true := by
  cases o with
  | imm => rw [row_dataProcessing_imm, selects_imm]
  | shiftImm => rw [row_dataProcessing_shiftImm, selects_shiftImm]
  | shiftReg => rw [row_dataProcessing_shiftReg, selects_shiftReg]

/-- The per-constructor laws of `Laws.SelectsRow` together: the word of a well-formed instruction selects its row. -/
theorem selects_row (i : Instr) : Laws.SelectsRow.Statement i := by
  rcases hd : i.dataProcessing? with _ | d
  · cases i with
    | b c offset24 => exact Laws.SelectsRow.b c offset24
    | bl c offset24 => exact Laws.SelectsRow.bl c offset24
    | ldrReg c b24 u b22 b21 rn rd amount ty rm => exact Laws.SelectsRow.ldrReg c b24 u b22 b21 rn rd amount ty rm
    | ldrRegBit4 c b24 u b22 b21 rn rd offHi offLo =>
      exact Laws.SelectsRow.ldrRegBit4 c b24 u b22 b21 rn rd offHi offLo
    | ldrImm c b24 u b22 b21 rn rd imm12 => exact Laws.SelectsRow.ldrImm c b24 u b22 b21 rn rd imm12
    | str c i b24 u b22 b21 rn rd offset => exact Laws.SelectsRow.str c i b24 u b22 b21 rn rd offset
    | pld rest => exact Laws.SelectsRow.pld rest
    | undecodable100 c rest => exact Laws.SelectsRow.undecodable100 c rest
    | undecodable110 c rest => exact Laws.SelectsRow.undecodable110 c rest
    | undecodable111 c rest => exact Laws.SelectsRow.undecodable111 c rest
    | _ => cases hd
  · intro _
    rw [Machine.eq_dataProcessing hd, encode_dataProcessing, selects_row_dataProcessing]

theorem selects_row_decode (w : Word) : (decode w).row.selects w = true := by
  have h := selects_row (decode w) (wellFormed_decode w)
  rwa [encode_decode] at h

theorem row_mem_opcodeTable (i : Instr) : i.row ∈ opcodeTable := by
  cases i <;> (simp only [Instr.row]; decide)

/-- Two rows exclude each other: they disagree on a bit both fix, or one fixes the condition 1111 and the other is not
for preloads. -/
def OpcodeRow.excludes (r r' : OpcodeRow) : Bool :=
  (r.value &&& r'.mask != r'.value &&& r.mask) ||
    (r.notPreload && (r'.value &&& 0xF0000000#32 == 0xF0000000#32)) ||
    (r'.notPreload && (r.value &&& 0xF0000000#32 == 0xF0000000#32))

theorem OpcodeRow.selects_iff (r : OpcodeRow) (w : Word) : r.selects w = true ↔
    w &&& r.mask = r.value ∧ ¬(r.notPreload = true ∧ w &&& 0xF0000000#32 = 0xF0000000#32) := by
  rw [OpcodeRow.selects, Bool.and_eq_true, Bool.not_eq_true', ← Bool.not_eq_true, Bool.and_eq_true, beq_iff_eq,
    beq_iff_eq]

/-- Bits that are all 1 in a masked word are all 1 in the word. -/
theorem and_eq_of_and_and_eq {w m p : Word} (h : w &&& m &&& p = p) : w &&& p = p := by
  calc w &&& p = w &&& (w &&& m &&& p) := by rw [h]
    _ = w &&& m &&& p := by simp only [← BitVec.and_assoc, BitVec.and_self]
    _ = p := h

theorem OpcodeRow.not_selects_both {r r' : OpcodeRow} (h : r.excludes r' = true) (w : Word) :
    ¬(r.selects w = true ∧ r'.selects w = true) := by
  rintro ⟨hr, hr'⟩
  obtain ⟨hv, hp⟩ := (selects_iff r w).1 hr
  obtain ⟨hv', hp'⟩ := (selects_iff r' w).1 hr'
  simp only [excludes, Bool.or_eq_true, bne_iff_ne, Bool.and_eq_true, beq_iff_eq] at h
  rcases h with (h | ⟨hn, hf⟩) | ⟨hn, hf⟩
  · rw [← hv, ← hv', BitVec.and_assoc, BitVec.and_comm r.mask, ← BitVec.and_assoc] at h
    exact h rfl
  · rw [← hv'] at hf
    exact hp ⟨hn, and_eq_of_and_and_eq hf⟩
  · rw [← hv] at hf
    exact hp' ⟨hn, and_eq_of_and_and_eq hf⟩

theorem opcodeTable_pairwise_excludes : opcodeTable.Pairwise (fun r r' => r.excludes r' = true) := by
  decide

/-- A word selects at most one row. -/
theorem eq_of_selects {r r' : OpcodeRow} (hr : r ∈ opcodeTable) (hr' : r' ∈ opcodeTable) {w : Word}
    (h : r.selects w = true) (h' : r'.selects w = true) : r = r' := by
  have hp : opcodeTable.Pairwise (fun r r' => ¬(r.selects w = true ∧ r'.selects w = true)) :=
    opcodeTable_pairwise_excludes.imp fun he => OpcodeRow.not_selects_both he w
  have : Std.Symm (fun r r' : OpcodeRow => ¬(r.selects w = true ∧ r'.selects w = true)) :=
    ⟨fun _ _ hn hs => hn hs.symm⟩
  by_contra hne
  exact hp.forall hr hr' hne ⟨h, h'⟩

end Sys2Proof

namespace Sys2Proof.Machine

/-! ### What the handlers do not read (30_encoding.md R84) -/

/-- Data-processing instructions of one operation and condition differ at most in their handlers. -/
theorem exec_dataProcessing_congr {k : AluOp} {sf : Bool} {rn rn' rd rd' : Reg} {o o' : Operand2}
    (h : aluHandler k sf rn rd o = aluHandler k sf rn' rd' o') (c : Cond) (s : State) :
    exec (.dataProcessing k c sf rn rd o) s = exec (.dataProcessing k c sf rn' rd' o') s := by
  rw [exec_dataProcessing, exec_dataProcessing, dataProcessing, h, dataProcessing]

theorem aluHandler_ignores_bit7 (k : AluOp) (sf : Bool) (rn rd rs : Reg) (x y : Bool) (ty : ShiftType) (rm : Reg) :
    aluHandler k sf rn rd (.shiftReg rs x ty rm) = aluHandler k sf rn rd (.shiftReg rs y ty rm) := rfl

/-- An operation that does not use its first operand ignores the field Rn: MOV and MVN. -/
theorem aluHandler_ignores_rn {k : AluOp} (h : ∀ a a' b cin, aluCompute k a b cin = aluCompute k a' b cin)
    (sf : Bool) (x y rd : Reg) (o : Operand2) : aluHandler k sf x rd o = aluHandler k sf y rd o := by
  funext s
  simp only [aluHandler, h (s.regRead x) (s.regRead y)]

/-- An operation that writes no register ignores the field Rd. -/
theorem aluHandler_ignores_rd {k : AluOp} (h : writesRd k = false) (sf : Bool) (rn x y : Reg) (o : Operand2) :
    aluHandler k sf rn x o = aluHandler k sf rn y o := by
  funext s
  simp [aluHandler, commitAlu, h]

theorem writesRd_compare : ∀ k ∈ [AluOp.tst, .teq, .cmp, .cmn], writesRd k = false := by decide

end Sys2Proof.Machine

namespace Sys2Proof.Proofs

open Sys2Proof.Machine

/-- Settles O11: each field reads back from its own place, and the fixed bits select the format. -/
theorem decodeOfEncodeIsTheInstruction : Obligations.DecodeOfEncodeIsTheInstruction := by
  unfold Obligations.DecodeOfEncodeIsTheInstruction
  exact decode_encode

/-- Settles O12: the fields a format reads cover the whole word, so joining them gives it back. -/
theorem encodeOfDecodeIsTheWord : Obligations.EncodeOfDecodeIsTheWord := by
  unfold Obligations.EncodeOfDecodeIsTheWord
  intro w
  exact ⟨wellFormed_decode w, encode_decode w⟩

/-- Settles O13: a word is the encoding of its decoding, so it selects that row; any two rows exclude each other. -/
theorem everyWordSelectsExactlyItsRow : Obligations.EveryWordSelectsExactlyItsRow := by
  unfold Obligations.EveryWordSelectsExactlyItsRow
  refine ⟨rfl, by decide, fun w => ⟨row_mem_opcodeTable (decode w), fun r hr => ⟨fun h => ?_, fun e => ?_⟩⟩⟩
  · exact eq_of_selects hr (row_mem_opcodeTable (decode w)) h (selects_row_decode w)
  · exact e ▸ selects_row_decode w

/-- Settles O14: thirteen closed words, each decoded by evaluation. -/
theorem writtenWordsDecodeAsTheSpecSays : Obligations.WrittenWordsDecodeAsTheSpecSays := by
  unfold Obligations.WrittenWordsDecodeAsTheSpecSays
  decide

/-- Settles O49: the handlers do not read the ignored fields, and the meanings of the transfers have no others. -/
theorem ignoredBitsDoNotMatter : Obligations.IgnoredBitsDoNotMatter := by
  unfold Obligations.IgnoredBitsDoNotMatter
  refine ⟨?_, ?_, ?_, ?_, ?_⟩
  · intro k c sf rn rd rs rm x y ty s
    exact exec_dataProcessing_congr (aluHandler_ignores_bit7 k sf rn rd rs x y ty rm) c s
  · intro c sf x y rd o s
    exact ⟨exec_dataProcessing_congr (aluHandler_ignores_rn (fun _ _ _ _ => rfl) sf x y rd o) c s,
      exec_dataProcessing_congr (aluHandler_ignores_rn (fun _ _ _ _ => rfl) sf x y rd o) c s⟩
  · intro k c sf rn x y o s hk
    exact exec_dataProcessing_congr (aluHandler_ignores_rd (writesRd_compare k hk) sf rn x y o) c s
  · intros
    rfl
  · intros
    exact ⟨rfl, rfl, rfl, rfl⟩

end Sys2Proof.Proofs
end

section
/-! Proofs for 40_step_and_condition.md: the step and the word it runs (R110, R111), the halted core (R120), and the
failed condition (R113, R117). -/

namespace Sys2Proof

/-- The image's four bytes of a word read back as that word (20_memory.md R51). -/
theorem wordOfBytes_fields (w : Word) :
    wordOfBytes (field w 0 8) (field w 8 8) (field w 16 8) (field w 24 8) = w := by
  simp only [wordOfBytes, place_field_join w]
  exact place_field_all w

end Sys2Proof

namespace Sys2Proof.Machine

open Sys2Proof.Claims

/-! ### The step -/

/-- A step that fetches runs the opcode at R[15] and adds nothing (R110, R111). -/
theorem step_of_fetches {s : State} (h : Fetches s) : step s = exec (decode (opcodeAtPc s)) s := by
  obtain ⟨hlen, hlatch, halign, hbound⟩ := h
  rcases step_cases s with ⟨hlong, -⟩ | ⟨-, ⟨f, hf⟩, -⟩ | ⟨-, -, hmis, -⟩ | ⟨-, -, -, hout, -⟩ | ⟨-, -, -, -, e⟩
  · exact absurd hlen (Nat.not_le.2 hlong)
  · cases hlatch.symm.trans hf
  · exact absurd halign hmis
  · exact absurd hbound (Nat.not_le.2 hout)
  · exact e

/-- A step of a halted core with a legal code length answers the same state (R120). -/
theorem step_of_halted {s : State} {f : FaultKind} (hlen : s.image.len ≤ 2 ^ 32) (hf : s.latch = some f) :
    step s = .next s := by
  rcases step_cases s with ⟨hlong, -⟩ | ⟨-, -, e⟩ | ⟨-, hnone, -⟩ | ⟨-, hnone, -⟩ | ⟨-, hnone, -⟩
  case inl => exact absurd hlen (Nat.not_le.2 hlong)
  case inr.inl => exact e
  all_goals cases hf.symm.trans hnone

/-! ### The placed word -/

/-- Bytes written from an offset on leave what is read below it. -/
theorem read_writeBytes_below (l : List Byte) {m : Memory} {a x : Nat} (hwf : m.wf) (hlen : a + l.length ≤ m.len)
    (hx : x < a) : (m.writeBytes a l).read x = m.read x := by
  induction l generalizing m a with
  | nil => rfl
  | cons b rest ih =>
    rw [List.length_cons] at hlen
    rw [Memory.writeBytes, ih (write_wf a b hwf) (by rw [write_len]; omega) (by omega),
      read_write a b x hwf (by omega), if_neg (by omega)]

/-- Bytes written inside the image read back, each at its own offset. -/
theorem read_writeBytes (l : List Byte) {m : Memory} {a n : Nat} (hwf : m.wf) (hlen : a + l.length ≤ m.len)
    (hn : n < l.length) : (m.writeBytes a l).read (a + n) = l[n] := by
  induction l generalizing m a n with
  | nil => cases hn
  | cons b rest ih =>
    rw [List.length_cons] at hlen hn
    have hwf' : (m.write a b).wf := write_wf a b hwf
    have hlen' : a + 1 + rest.length ≤ (m.write a b).len := by rw [write_len]; omega
    rw [Memory.writeBytes]
    cases n with
    | zero =>
      rw [Nat.add_zero a, read_writeBytes_below rest hwf' hlen' (by omega), read_write a b a hwf (by omega),
        if_pos rfl, List.getElem_cons_zero]
    | succ n => rw [← Nat.add_assoc, Nat.add_right_comm, ih hwf' hlen' (by omega), List.getElem_cons_succ]

/-- A word whose bytes are written inside the image is the word CodeRead32 reads there. -/
theorem codeRead32_writeBytes_bytesOfWord {m : Memory} {a : Nat} (w : Word) (hwf : m.wf) (hlen : a + 4 ≤ m.len) :
    codeRead32 (m.writeBytes a (bytesOfWord w)) a = w := by
  have hread (n : Nat) (hn : n < 4) : (m.writeBytes a (bytesOfWord w)).read (a + n) = (bytesOfWord w)[n] :=
    read_writeBytes (bytesOfWord w) hwf hlen hn
  have h0 := hread 0 (by decide)
  rw [Nat.add_zero] at h0
  rw [codeRead32, h0, hread 1 (by decide), hread 2 (by decide), hread 3 (by decide)]
  exact wordOfBytes_fields w

/-- Placing a word writes no register (log entry 12). -/
@[simp] theorem withFetchWord_get (s : State) (nbits w : Nat) (j : Reg) :
    (s.withFetchWord nbits w).get j = s.get j := rfl

/-- The image is made long enough for the placed word, and never longer than 2^32. -/
@[simp] theorem withFetchWord_len (s : State) (nbits w : Nat) :
    (s.withFetchWord nbits w).image.len = max s.image.len (min (s.pc.toNat + 4) (2 ^ 32)) := by
  rw [State.withFetchWord, writeBytes_len, extend_len]

/-- An aligned word ends inside the address space. -/
theorem add_four_le_of_aligned {x : Word} (h : x.toNat % 4 = 0) : x.toNat + 4 ≤ 2 ^ 32 := by
  have := x.isLt
  omega

/-- A word placed at an aligned R[15] lies inside the image. -/
theorem withFetchWord_bound {s : State} (nbits w : Nat) (halign : s.pc.toNat % 4 = 0) :
    s.pc.toNat + 4 ≤ (s.withFetchWord nbits w).image.len := by
  rw [withFetchWord_len, Nat.min_eq_left (add_four_le_of_aligned halign)]
  exact Nat.le_max_right ..

/-- Placing a word keeps the code length legal. -/
theorem withFetchWord_len_le {s : State} (nbits w : Nat) (hlen : s.image.len ≤ 2 ^ 32) :
    (s.withFetchWord nbits w).image.len ≤ 2 ^ 32 := by
  rw [withFetchWord_len]
  exact Nat.max_le.2 ⟨hlen, Nat.min_le_right ..⟩

/-- The opcode at an aligned R[15] is the word placed there. -/
theorem opcodeAtPc_withFetchWord {s : State} (w : Nat) (hwf : s.image.wf) (halign : s.pc.toNat % 4 = 0) :
    opcodeAtPc (s.withFetchWord 32 w) = BitVec.ofNat 32 w := by
  have hbound := withFetchWord_bound 32 w halign
  rw [State.withFetchWord, writeBytes_len] at hbound
  have hmod : BitVec.ofNat 32 (w % 2 ^ 32) = BitVec.ofNat 32 w := BitVec.eq_of_toNat_eq (by simp)
  rw [← hmod]
  exact codeRead32_writeBytes_bytesOfWord _ (extend_wf _ hwf) hbound

/-- A core that has not halted, with R[15] aligned, fetches after a word is placed. -/
theorem fetches_withFetchWord {s : State} (w : Nat) (hlen : s.image.len ≤ 2 ^ 32) (hlatch : s.latch = none)
    (halign : s.pc.toNat % 4 = 0) : Fetches (s.withFetchWord 32 w) := by
  rw [Fetches, withFetchWord_get]
  exact ⟨withFetchWord_len_le 32 w hlen, hlatch, halign, withFetchWord_bound 32 w halign⟩

/-! ### The failed condition -/

/-- An instruction other than the undecodable ones whose condition fails has only the Advance (R113). -/
theorem exec_of_not_passes {i : Instr} {s : State} (hu : isUndecodable i = false) (hc : ¬ Passes i.cond s.flags) :
    exec i s = .next s.advance := by
  rw [← canExecute_iff_passes] at hc
  rcases exec_cases i s with ⟨hu', -⟩ | ⟨-, -, e⟩ | ⟨-, hc', -⟩ | ⟨-, hc', -⟩
  · cases hu.symm.trans hu'
  · exact e
  · exact absurd hc' hc
  · exact absurd hc' hc

/-- The Advance writes register 15 alone, by adding 4 (R114). -/
theorem advance_writesNoRegister (s : State) : WritesNoRegister s s.advance :=
  ⟨fun j hj => advance_get s j hj, advance_pc s⟩

/-- The Advance keeps the latch, the image and the parameters (R114). -/
theorem advance_sameRest (s : State) : SameRest s s.advance :=
  ⟨advance_latch s, advance_image s, advance_cfg s⟩

/-- An instruction whose condition fails only advances (R113). -/
theorem onlyAdvances_of_not_passes {i : Instr} {s : State} (hu : isUndecodable i = false)
    (hc : ¬ Passes i.cond s.flags) : OnlyAdvances i s :=
  ⟨s.advance, exec_of_not_passes hu hc, advance_writesNoRegister s, advance_flags s, advance_sameRest s⟩

end Sys2Proof.Machine

namespace Sys2Proof.Proofs

open Sys2Proof.Machine

/-- Settles O1: the four bytes at R[15] are those of the opcode there, so their decoding is what the step runs. -/
theorem stepRunsDecodedInstruction : Obligations.StepRunsDecodedInstruction := by
  unfold Obligations.StepRunsDecodedInstruction
  intro s i hfetch hdecode
  have hi : decode (opcodeAtPc s) = i := congrArg Prod.fst (Except.ok.inj hdecode)
  rw [step_of_fetches hfetch, hi]

/-- Settles O3: of all a step can do, a set latch leaves the halted core's. -/
theorem haltedCoreDoesNothing : Obligations.HaltedCoreDoesNothing := by
  unfold Obligations.HaltedCoreDoesNothing
  intro s f hlen hf
  exact step_of_halted hlen hf

/-- Settles O16: the placed word lies inside the image and reads back, so the step fetches it. -/
theorem placedWordRunsNext : Obligations.PlacedWordRunsNext := by
  unfold Obligations.PlacedWordRunsNext
  intro s w hwf hlen hlatch halign
  refine ⟨?_, rfl, rfl, rfl, rfl, withFetchWord_wf 32 w hwf, withFetchWord_len_le 32 w hlen⟩
  rw [step_of_fetches (fetches_withFetchWord w hlen hlatch halign), opcodeAtPc_withFetchWord w hwf halign]

/-- Settles O17: a failed condition leaves the Advance alone, which keeps all but register 15. -/
theorem failedConditionOnlyAdvances : Obligations.FailedConditionOnlyAdvances := by
  unfold Obligations.FailedConditionOnlyAdvances
  intro i s hu hc
  exact onlyAdvances_of_not_passes hu hc

end Sys2Proof.Proofs
end

section
/-! Proofs for 41_barrel_shifter.md: the four shifts as arithmetic on numbers (R131 to R137), the amounts of 32 and more
(R139), and the rotation by 0 (R138). Each shift by an amount other than 0 is one library shift and one bit, whatever
the amount is; the statements follow from that form. -/

namespace Sys2Proof.Machine

open Sys2Proof.Claims

/-! ### The library shifts behind the model's cases -/

/-- An arithmetic shift by the width or more leaves only copies of the sign bit. -/
theorem sshiftRight_eq_signFill {n : Nat} (v : Word) (h : 32 ≤ n) : v.sshiftRight n = signFill v := by
  have hfar (i : Nat) : ¬ n + i < 32 := by omega
  apply BitVec.eq_of_getLsbD_eq
  intro i hi
  rw [BitVec.getLsbD_sshiftRight, if_neg (hfar i), BitVec.msb_eq_getLsbD_last, signFill]
  cases v.getLsbD (32 - 1)
  · simp
  · rw [if_pos rfl, show 0xFFFFFFFF#32 = BitVec.allOnes 32 from rfl, BitVec.getLsbD_allOnes]
    simp [hi]

/-- The lowest bit after an arithmetic shift is the last bit reached, at most the sign bit. -/
theorem getLsbD_zero_sshiftRight (v : Word) (n : Nat) : (v.sshiftRight n).getLsbD 0 = v.getLsbD (min n 31) := by
  rw [BitVec.getLsbD_sshiftRight, BitVec.msb_eq_getLsbD_last, Nat.add_zero]
  split_ifs with h
  · have : min n 31 = n := by omega
    simp [this]
  · have : min n 31 = 31 := by omega
    simp [this]

/-- `ror32` of 00_scope.md R10 is the library's rotation. -/
theorem ror32_eq_rotateRight (v : Word) (n : Nat) : ror32 v n = v.rotateRight n := by
  by_cases h : n % 32 = 0
  · simp [ror32, BitVec.rotateRight_def, h]
  · simp [ror32, BitVec.rotateRight_def, h]

/-- A rotation by a multiple of the width is none. -/
theorem rotateRight_eq_self {n : Nat} (v : Word) (h : n % 32 = 0) : v.rotateRight n = v := by
  rw [← ror32_eq_rotateRight]
  simp [ror32, h]

/-- A rotation moves bit `i + n` (modulo 32) to place `i`. -/
theorem getLsbD_rotateRight_eq (v : Word) (n : Nat) {i : Nat} (hi : i < 32) :
    (v.rotateRight n).getLsbD i = v.getLsbD ((i + n) % 32) := by
  rw [BitVec.getLsbD_rotateRight]
  by_cases h : i < 32 - n % 32
  · have : n % 32 + i = (i + n) % 32 := by omega
    simp [h, this]
  · have : i - (32 - n % 32) = (i + n) % 32 := by omega
    simp [h, hi, this]

/-! ### The shifter by an amount other than 0: one form for every amount (R131 to R134, R139) -/

theorem shift_lsl_of_pos {n : Nat} (h : 1 ≤ n) (v : Word) (cin : Bool) :
    shift .lsl n v cin = ⟨v <<< n, decide (n ≤ 32) && v.getLsbD (32 - n)⟩ := by
  have h0 : n ≠ 0 := by omega
  rcases Nat.lt_trichotomy n 32 with hn | rfl | hn
  · simp [shift, shiftLsl, h0, hn, hn.le]
  · simp [shift, shiftLsl]
  · simp [shift, shiftLsl, h0, hn.not_gt, hn.ne', hn.not_ge, BitVec.shiftLeft_eq_zero hn.le]

theorem shift_lsr_of_pos {n : Nat} (h : 1 ≤ n) (v : Word) (cin : Bool) :
    shift .lsr n v cin = ⟨v >>> n, v.getLsbD (n - 1)⟩ := by
  have h0 : n ≠ 0 := by omega
  rcases Nat.lt_trichotomy n 32 with hn | rfl | hn
  · simp [shift, shiftLsr, h0, hn]
  · rw [BitVec.ushiftRight_eq_zero (Nat.le_refl 32)]
    rfl
  · have hout : v.getLsbD (n - 1) = false := BitVec.getLsbD_of_ge v _ (by omega)
    simp [shift, shiftLsr, h0, hn.not_gt, hn.ne', BitVec.ushiftRight_eq_zero hn.le, hout]

/-- From 32 on the arithmetic shift fills with bit 31 and passes it out (R139). -/
theorem shift_asr_of_ge {n : Nat} (h : 32 ≤ n) (v : Word) (cin : Bool) :
    shift .asr n v cin = ⟨signFill v, v.getLsbD 31⟩ := by
  have h0 : n ≠ 0 := by omega
  simp [shift, shiftAsr, h0, Nat.not_lt.2 h]

theorem shift_asr_of_pos {n : Nat} (h : 1 ≤ n) (v : Word) (cin : Bool) :
    shift .asr n v cin = ⟨v.sshiftRight n, (v.sshiftRight (n - 1)).getLsbD 0⟩ := by
  have h0 : n ≠ 0 := by omega
  rw [getLsbD_zero_sshiftRight]
  rcases Nat.lt_or_ge n 32 with hn | hn
  · have hlast : min (n - 1) 31 = n - 1 := by omega
    simp [shift, shiftAsr, h0, hn, hlast]
  · have hlast : min (n - 1) 31 = 31 := by omega
    rw [shift_asr_of_ge hn, sshiftRight_eq_signFill v hn, hlast]

theorem shift_ror_of_pos {n : Nat} (h : 1 ≤ n) (v : Word) (cin : Bool) :
    shift .ror n v cin = ⟨v.rotateRight n, (v.rotateRight n).getLsbD 31⟩ := by
  have h0 : n ≠ 0 := by omega
  rw [getLsbD_rotateRight_eq v n (by decide)]
  by_cases hn : n % 32 = 0
  · have hlast : (31 + n) % 32 = 31 := by omega
    simp [shift, shiftRor, h0, hn, rotateRight_eq_self v hn, hlast]
  · have hlast : (31 + n) % 32 = n % 32 - 1 := by omega
    simp [shift, shiftRor, h0, hn, ror32_eq_rotateRight, hlast]

/-- ROR by a multiple of 32 other than 0 passes the value (R139). -/
theorem shift_ror_of_mod_eq_zero {n : Nat} (h : 1 ≤ n) (hn : n % 32 = 0) (v : Word) (cin : Bool) :
    shift .ror n v cin = ⟨v, v.getLsbD 31⟩ := by
  rw [shift_ror_of_pos h, rotateRight_eq_self v hn]

/-- ROR by any other amount is ROR by the amount modulo 32 (R139). -/
theorem shift_ror_mod {n : Nat} (hn : n % 32 ≠ 0) (v : Word) (cin : Bool) :
    shift .ror n v cin = shift .ror (n % 32) v cin := by
  have hpos : 1 ≤ n := by omega
  rw [shift_ror_of_pos hpos, shift_ror_of_pos (Nat.one_le_iff_ne_zero.2 hn), BitVec.rotateRight_mod_eq_rotateRight]

/-- With RRX, the rotation by 0 goes one place right through the carry (R138). -/
theorem shift_ror_zero (v : Word) (cin : Bool) :
    (shift .ror 0 v cin).value.toNat = cin.toNat * 2 ^ 31 + v.toNat / 2 := by
  have hv := v.isLt
  cases cin
  · simp [shift, shiftRor, Nat.shiftRight_one]
  · simp [shift, shiftRor, Nat.shiftRight_one]
    omega

/-! ### A bit of a word as a remainder of its value -/

theorem getLsbD_eq_decide_toNat (v : Word) (i : Nat) : v.getLsbD i = decide (v.toNat / 2 ^ i % 2 = 1) := by
  rw [← BitVec.testBit_toNat, Nat.testBit_eq_decide_div_mod_eq]

/-- A word and its signed value are both odd or both even. -/
theorem getLsbD_zero_eq_decide_toInt (v : Word) : v.getLsbD 0 = decide (v.toInt % 2 = 1) := by
  have hodd : v.toNat % 2 = 1 ↔ v.toInt % 2 = 1 := by
    rw [BitVec.toInt_eq_toNat_cond]
    split <;> omega
  simp only [getLsbD_eq_decide_toNat, Nat.pow_zero, Nat.div_one, hodd]

/-- An arithmetic shift is the floor of the division of the signed value by a power of 2. -/
theorem toInt_sshiftRight_eq_div (v : Word) (n : Nat) : (v.sshiftRight n).toInt = v.toInt / 2 ^ n := by
  rw [BitVec.toInt_sshiftRight, Int.shiftRight_eq_div_pow, Int.natCast_pow]
  rfl

/-! ### Operands without a value (R138) -/

theorem operandValue_eq_regRead (s : State) (i : Reg) : operandValue s i = s.regRead i := rfl

theorem registerAmount_eq_shiftAmount (s : State) (rs : Reg) : registerAmount s rs = shiftAmount s rs := rfl

theorem rorZeroMissing_of_not_rrx {cfg : Config} (h : cfg.rrxImplemented = false) :
    rorZeroMissing cfg .ror 0 = true := by
  simp [rorZeroMissing, h]

theorem shiftedReg_of_rrx {s : State} (h : s.cfg.rrxImplemented = true) (ty : ShiftType) (n : Nat) (rm : Reg) :
    shiftedReg s ty n rm = .ok (shift ty n (s.regRead rm) s.flags.c) := by
  simp [shiftedReg, rorZeroMissing, h]

theorem lacksHandler_of_operandMissing {s : State} {o : Operand2} (h : operandMissing s o = true) (k : AluOp) (c : Cond)
    (sf : Bool) (rn rd : Reg) : lacksHandler (.dataProcessing k c sf rn rd o) s = true := by
  simp [lacksHandler, h]

/-- An instruction without a handler whose condition passes raises Unimplemented and changes nothing else
(60_exceptions.md R232, R236). -/
theorem raises_of_lacksHandler {i : Instr} {s : State} (hu : isUndecodable i = false) (hp : Passes i.cond s.flags)
    (hl : lacksHandler i s = true) : Raises i s .unimplemented := by
  rw [← canExecute_iff_passes] at hp
  rcases exec_cases i s with ⟨hu', -⟩ | ⟨-, hc, -⟩ | ⟨-, -, -, e⟩ | ⟨-, -, hl', -⟩
  · cases hu.symm.trans hu'
  · cases hp.symm.trans hc
  · exact e
  · cases hl.symm.trans hl'

/-- A data-processing instruction without a value for operand 2 raises Unimplemented, whatever its operation. -/
theorem dataProcessing_raises_of_operandMissing {c : Cond} {s : State} {o : Operand2} (hp : Passes c s.flags)
    (h : operandMissing s o = true) (k : AluOp) (sf : Bool) (rn rd : Reg) :
    Raises (.dataProcessing k c sf rn rd o) s .unimplemented :=
  raises_of_lacksHandler (isUndecodable_dataProcessing ..) (by rwa [cond_dataProcessing])
    (lacksHandler_of_operandMissing h k c sf rn rd)

/-- A data-processing instruction that executes commits its result and advances. -/
theorem exec_dataProcessing_commits {k : AluOp} {c : Cond} {s : State} {o : Operand2} {b : ShiftOut}
    (hp : Passes c s.flags) (hk : k ∈ s.cfg.aluHandlers) (hb : operand2 s o = .ok b) (sf : Bool) (rn rd : Reg) :
    exec (.dataProcessing k c sf rn rd o) s =
      .next (commitAlu k sf rd (aluCompute k (s.regRead rn) b.value s.flags.c) b.carry s).advance := by
  rw [exec_dataProcessing, dataProcessing, conditional_passes ((canExecute_iff_passes ..).2 hp),
    aluHandler_commits hk hb, finish]

end Sys2Proof.Machine

namespace Sys2Proof.Proofs

open Sys2Proof.Machine Sys2Proof.Claims

/-- Settles O53: by 1 or more, LSL is the library's shift, and its carry is bit 32 of the product. -/
theorem lslMultiplies : Obligations.LslMultiplies := by
  unfold Obligations.LslMultiplies
  intro n v cin
  refine ⟨?_, fun h => ?_⟩
  · rintro rfl
    rfl
  · rw [shift_lsl_of_pos h]
    constructor
    · rw [BitVec.toNat_shiftLeft, Nat.shiftLeft_eq]
    · rw [← Nat.testBit_eq_decide_div_mod_eq, ← Nat.shiftLeft_eq, Nat.testBit_shiftLeft, BitVec.testBit_toNat]

/-- Settles O54: by 1 or more, LSR is the library's shift, and its carry is bit n - 1 of the value. -/
theorem lsrDivides : Obligations.LsrDivides := by
  unfold Obligations.LsrDivides
  intro n v cin
  refine ⟨?_, fun h => ?_⟩
  · rintro rfl
    rfl
  · rw [shift_lsr_of_pos h]
    constructor
    · rw [BitVec.toNat_ushiftRight, Nat.shiftRight_eq_div_pow]
    · exact getLsbD_eq_decide_toNat v (n - 1)

/-- Settles O55: by 1 or more, ASR is the library's shift, and its carry is the lowest bit of the shift by one less. -/
theorem asrDividesSigned : Obligations.AsrDividesSigned := by
  unfold Obligations.AsrDividesSigned
  intro n v cin
  refine ⟨?_, fun h => ?_⟩
  · rintro rfl
    rfl
  · rw [shift_asr_of_pos h]
    constructor
    · exact toInt_sshiftRight_eq_div v n
    · rw [getLsbD_zero_eq_decide_toInt, toInt_sshiftRight_eq_div]

/-- Settles O56: by 1 or more, ROR is the library's rotation, and its carry is bit 31 of the result. -/
theorem rorRotates : Obligations.RorRotates := by
  unfold Obligations.RorRotates
  intro n v cin h
  rw [shift_ror_of_pos h]
  exact ⟨fun i hi => getLsbD_rotateRight_eq v n hi, rfl⟩

/-- Settles O57: at 32 by evaluation; above, the library's shifts have moved every bit out. -/
theorem largeShiftAmounts : Obligations.LargeShiftAmounts := by
  unfold Obligations.LargeShiftAmounts
  intro n v cin _
  refine ⟨?_, fun h => shift_asr_of_ge h v cin, fun h => ?_⟩
  · rintro rfl
    exact ⟨rfl, rfl, shift_ror_of_mod_eq_zero (by decide) rfl v cin⟩
  · have hpos : 1 ≤ n := by omega
    have hlong : 32 ≤ n := by omega
    refine ⟨?_, ?_, fun hn => shift_ror_of_mod_eq_zero hpos hn v cin, fun hn => shift_ror_mod hn v cin⟩
    · rw [shift_lsl_of_pos hpos, BitVec.shiftLeft_eq_zero hlong, decide_eq_false (Nat.not_le.2 h), Bool.false_and]
    · rw [shift_lsr_of_pos hpos, BitVec.ushiftRight_eq_zero hlong, BitVec.getLsbD_of_ge v (n - 1) (by omega)]

/-- Settles O58: without RRX the operand is missing, so the instruction has no handler; with RRX MOV commits the
shifter's value. -/
theorem rotateByZeroIsRrxOrUnimplemented : Obligations.RotateByZeroIsRrxOrUnimplemented := by
  unfold Obligations.RotateByZeroIsRrxOrUnimplemented
  refine ⟨?_, fun v cin => ⟨shift_ror_zero v cin, rfl⟩, ?_⟩
  · intro k c sf rn rd rs rm bit7 b24 u b22 b21 s hrrx hp
    have hmissing : rorZeroMissing s.cfg .ror 0 = true := rorZeroMissing_of_not_rrx hrrx
    refine ⟨?_, fun h => ?_, ?_⟩
    · exact dataProcessing_raises_of_operandMissing (o := .shiftImm 0#5 .ror rm) hp hmissing k sf rn rd
    · have hreg : operandMissing s (.shiftReg rs bit7 .ror rm) = true := by
        rwa [operandMissing, ← registerAmount_eq_shiftAmount, h]
      exact dataProcessing_raises_of_operandMissing hp hreg k sf rn rd
    · exact raises_of_lacksHandler rfl hp hmissing
  · intro c rn rd rm s hrrx hp hk hrd
    have hb := shiftedReg_of_rrx hrrx .ror 0 rm
    refine ⟨_, exec_dataProcessing_commits (o := .shiftImm 0#5 .ror rm) hp hk hb false rn rd, ?_⟩
    rw [advance_get _ _ hrd, commitAlu_get, if_pos ⟨rfl, rfl⟩, operandValue_eq_regRead]
    exact shift_ror_zero (s.regRead rm) s.flags.c

end Sys2Proof.Proofs
end

section
/-! Proofs for 42_data_processing.md: the sixteen operations in their three operand forms (R160 to R181), what they
leave unchanged, and the comparisons after CMP (R174). The three forms share one execution, so one lemma reduces each
operation's statement to its commit; the registers (R163) and the flags (R161, R162, R173) of a commit are then read
off once per kind of operation. -/

namespace Sys2Proof.Machine

open Sys2Proof.Claims

/-! ### Operand 2 (41_barrel_shifter.md R138 to R142) -/

/-- A rotation by 0 is missing exactly where RRX is not implemented (R138). -/
theorem rorZeroMissing_eq_false_iff (cfg : Config) (ty : ShiftType) (n : Nat) :
    rorZeroMissing cfg ty n = false ↔ (ty = .ror → n = 0 → cfg.rrxImplemented = true) := by
  cases ty <;> simp [rorZeroMissing]

/-- Operand 2 is missing exactly where it is not ready. -/
theorem operandMissing_eq_false_iff_rrxReady (s : State) (o : Operand2) :
    operandMissing s o = false ↔ RrxReady s o := by
  cases o with
  | imm rotate imm8 => exact iff_of_true rfl trivial
  | shiftImm amount ty rm =>
    have hzero : amount.toNat = 0 ↔ amount = 0#5 := BitVec.toNat_inj (y := 0#5)
    rw [operandMissing, rorZeroMissing_eq_false_iff, hzero, RrxReady]
  | shiftReg rs bit7 ty rm => exact rorZeroMissing_eq_false_iff s.cfg ty (shiftAmount s rs)

/-- A shifted register that is not missing is the shifter's output. -/
theorem shiftedReg_of_not_missing {s : State} {ty : ShiftType} {n : Nat} (h : rorZeroMissing s.cfg ty n = false)
    (rm : Reg) : shiftedReg s ty n rm = .ok (shift ty n (operandValue s rm) s.flags.c) := by
  rw [shiftedReg, h, operandValue_eq_regRead]
  rfl

/-- The immediate operand is the library's rotation (R140). -/
theorem operandImm_eq_operand2Of (s : State) (rotate : BitVec 4) (imm8 : BitVec 8) :
    operandImm s rotate imm8 = operand2Of s (.imm rotate imm8) := by
  rw [operandImm, operand2Of, ror32_eq_rotateRight]

/-- Operand 2, where it is ready, has the value and the carry of R140 to R142. -/
theorem operand2_of_rrxReady {s : State} {o : Operand2} (h : RrxReady s o) : operand2 s o = .ok (operand2Of s o) := by
  rw [← operandMissing_eq_false_iff_rrxReady] at h
  cases o with
  | imm rotate imm8 => exact congrArg Except.ok (operandImm_eq_operand2Of s rotate imm8)
  | shiftImm amount ty rm => exact shiftedReg_of_not_missing h rm
  | shiftReg rs bit7 ty rm => exact shiftedReg_of_not_missing h rm

/-! ### The rule of an operation from its commit -/

/-- The state after an operation that executes: the commit of its result on the operands `a` and `b`, then the
Advance (42_data_processing.md R160, 40_step_and_condition.md R114). -/
def afterAlu (k : AluOp) (sf : Bool) (rd : Reg) (a b : Word) (sc : Bool) (s : State) : State :=
  (commitAlu k sf rd (aluCompute k a b s.flags.c) sc s).advance

/-- A data-processing instruction that executes ends in `afterAlu` of its operands. -/
theorem exec_dataProcessing_eq_afterAlu {k : AluOp} {c : Cond} {s : State} {o : Operand2} (hp : Passes c s.flags)
    (hk : k ∈ s.cfg.aluHandlers) (ho : RrxReady s o) (sf : Bool) (rn rd : Reg) :
    exec (.dataProcessing k c sf rn rd o) s =
      .next (afterAlu k sf rd (operandValue s rn) (operand2Of s o).value (operand2Of s o).carry s) :=
  exec_dataProcessing_commits hp hk (operand2_of_rrxReady ho) sf rn rd

/-- No operation touches the latch, the image or the parameters. -/
theorem afterAlu_sameRest (k : AluOp) (sf : Bool) (rd : Reg) (a b : Word) (sc : Bool) (s : State) :
    SameRest s (afterAlu k sf rd a b sc s) :=
  commitAlu_rest ..

/-- A data-processing instruction without a handler, or whose operand 2 is not ready, is on the list of
30_encoding.md R83. -/
theorem lacksHandler_dataProcessing {k : AluOp} {s : State} {o : Operand2}
    (h : k ∉ s.cfg.aluHandlers ∨ ¬ RrxReady s o) (c : Cond) (sf : Bool) (rn rd : Reg) :
    lacksHandler (.dataProcessing k c sf rn rd o) s = true := by
  rw [← operandMissing_eq_false_iff_rrxReady, Bool.not_eq_false] at h
  simpa [lacksHandler] using h

/-- An operation follows its rule when its commit has the rule's effect: the faults and the failed condition are the
same for all sixteen (42_data_processing.md R160, 40_step_and_condition.md R113). -/
theorem aluRule_of_afterAlu {k : AluOp} {effect : State → State → Bool → Reg → Word → Word → Bool → Prop}
    (h : ∀ s sf rd a b sc, effect s (afterAlu k sf rd a b sc s) sf rd a b sc) : AluRule k effect := by
  intro c sf rn rd o s
  refine ⟨fun hp hk ho => ?_, fun hp hmissing => ?_, fun hp => ?_⟩
  · exact ⟨_, exec_dataProcessing_eq_afterAlu hp hk ho sf rn rd, afterAlu_sameRest .., h ..⟩
  · exact raises_of_lacksHandler (isUndecodable_dataProcessing ..) (by rwa [cond_dataProcessing])
      (lacksHandler_dataProcessing hmissing c sf rn rd)
  · exact onlyAdvances_of_not_passes (isUndecodable_dataProcessing ..) (by rwa [cond_dataProcessing])

/-! ### What a commit leaves in the registers and the flags -/

section Commit

variable {k : AluOp} {a b r : Word} {s : State} (sf : Bool) (rd : Reg) (sc : Bool)

/-- An operation that writes Rd leaves its result there (R163), advanced by 4 where Rd is 15. -/
theorem afterAlu_writesResult {kind : AluKind} (hw : writesRd k = true)
    (hout : aluCompute k a b s.flags.c = ⟨r, kind⟩) : WritesResult s (afterAlu k sf rd a b sc s) rd r := by
  have hget (j : Reg) : (commitAlu k sf rd ⟨r, kind⟩ sc s).get j = if j = rd then r else s.get j := by
    simp [commitAlu_get, hw]
  refine ⟨fun j hj => ?_, ?_⟩
  · rw [afterAlu, hout, advance_get _ _ hj, hget]
  · rw [afterAlu, hout, advance_pc, hget, ite_cond_congr (propext eq_comm)]

/-- TST, TEQ, CMP and CMN leave every register but 15, whatever Rd is (R163). -/
theorem afterAlu_writesNoRegister (hw : writesRd k = false) :
    WritesNoRegister s (afterAlu k sf rd a b sc s) := by
  have hkeep (j : Reg) : ¬ (writesRd k = true ∧ j = rd) := by simp [hw]
  refine ⟨fun j hj => ?_, ?_⟩
  · rw [afterAlu, advance_get _ _ hj, commitAlu_get, if_neg (hkeep j)]
  · rw [afterAlu, advance_pc, commitAlu_get, if_neg (hkeep 15)]

theorem afterAlu_flags : (afterAlu k sf rd a b sc s).flags =
    flagsAfter k sf (aluCompute k a b s.flags.c) sc s.flags := by
  rw [afterAlu, advance_flags, commitAlu_flags]

/-- The flags of a logical operation (R161), TEQ aside. -/
theorem afterAlu_logicalFlags (hk : writesNzAlways k = false) (hout : aluCompute k a b s.flags.c = ⟨r, .logical⟩) :
    LogicalFlags s (afterAlu k sf rd a b sc s) sf r sc := by
  rw [LogicalFlags, afterAlu_flags, hout]
  cases sf with
  | true => exact flagsAfter_logical k r sc s.flags
  | false => exact flagsAfter_keep hk ..

/-- The flags of an arithmetic operation (R162). -/
theorem afterAlu_arithmeticFlags {carry overflow : Bool} (hk : writesNzAlways k = false)
    (hout : aluCompute k a b s.flags.c = ⟨r, .arithmetic carry overflow⟩) :
    ArithmeticFlags s (afterAlu k sf rd a b sc s) sf r carry overflow := by
  rw [ArithmeticFlags, afterAlu_flags, hout]
  cases sf with
  | true => exact flagsAfter_arithmetic k r carry overflow sc s.flags
  | false => exact flagsAfter_keep hk ..

/-- TEQ writes N and Z whatever S is, C with S = 1 and V never (R173). -/
theorem afterAlu_teq_flags : (afterAlu .teq sf rd a b sc s).flags =
    ⟨(a ^^^ b).getLsbD 31, decide (a ^^^ b = 0#32), if sf then sc else s.flags.c, s.flags.v⟩ := by
  rw [afterAlu_flags]
  cases sf with
  | true => exact flagsAfter_logical .teq (a ^^^ b) sc s.flags
  | false => rfl

end Commit

/-! ### The rules of the logical and of the arithmetic operations that write Rd -/

/-- TEQ alone writes N and Z with S = 0 (R173). -/
theorem writesNzAlways_of_ne_teq {k : AluOp} (h : k ≠ .teq) : writesNzAlways k = false := by
  cases k with
  | teq => exact absurd rfl h
  | _ => rfl

theorem writesNzAlways_of_writesRd {k : AluOp} (hw : writesRd k = true) : writesNzAlways k = false :=
  writesNzAlways_of_ne_teq (by rintro rfl; cases hw)

/-- A logical operation with result `f a b` that writes Rd (R161, R163). -/
theorem aluRule_of_logical {k : AluOp} {f : Word → Word → Word} (hw : writesRd k = true)
    (hout : ∀ a b cin, aluCompute k a b cin = ⟨f a b, .logical⟩) :
    AluRule k fun s t sf rd a b sc => WritesResult s t rd (f a b) ∧ LogicalFlags s t sf (f a b) sc :=
  aluRule_of_afterAlu fun s sf rd a b sc => ⟨afterAlu_writesResult sf rd sc hw (hout a b s.flags.c),
    afterAlu_logicalFlags sf rd sc (writesNzAlways_of_writesRd hw) (hout a b s.flags.c)⟩

/-- An arithmetic operation that writes Rd, whose result, carry and overflow may depend on the carry flag at the start
of the step (R162, R163). -/
theorem aluRule_of_arithmetic {k : AluOp} {f : Word → Word → State → Word}
    {carry overflow : Word → Word → State → Bool} (hw : writesRd k = true)
    (hout : ∀ a b s, aluCompute k a b s.flags.c = ⟨f a b s, .arithmetic (carry a b s) (overflow a b s)⟩) :
    AluRule k fun s t sf rd a b _ =>
      WritesResult s t rd (f a b s) ∧ ArithmeticFlags s t sf (f a b s) (carry a b s) (overflow a b s) :=
  aluRule_of_afterAlu fun s sf rd a b sc => ⟨afterAlu_writesResult sf rd sc hw (hout a b s),
    afterAlu_arithmeticFlags sf rd sc (writesNzAlways_of_writesRd hw) (hout a b s)⟩

/-! ### What a data-processing instruction leaves unchanged, whatever became of it -/

section Frame

variable {k : AluOp} {c : Cond} {sf : Bool} {rn rd : Reg} {o : Operand2} {s t : State}

/-- A register below 15 that is not a written Rd is kept (R163). -/
theorem dataProcessing_keeps_register (h : exec (.dataProcessing k c sf rn rd o) s = .next t) {j : Reg}
    (hj : j ≠ 15) (hw : writesRd k = false ∨ j ≠ rd) : t.get j = s.get j := by
  by_contra hne
  obtain ⟨-, hmay⟩ := Proofs.onlyDestinationsChange _ s t j h hj hne
  rw [mayWrite_of_dataProcessing (dataProcessing?_dataProcessing ..)] at hmay
  obtain ⟨hrd, hjrd⟩ : writesRd k = true ∧ j = rd := by simpa using hmay
  rcases hw with hw | hw
  · cases hrd.symm.trans hw
  · exact hw hjrd

/-- With S = 0 the flags are kept, but for TEQ (R161, R162, R173). -/
theorem dataProcessing_keeps_flags (h : exec (.dataProcessing k c false rn rd o) s = .next t)
    (hk : writesNzAlways k = false) : t.flags = s.flags := by
  by_contra hne
  obtain ⟨-, hmay⟩ := (Proofs.onlyFlagInstructionsChangeFlags _ s t h).1 hne
  exact absurd hmay (by simp [mayWriteFlags, hk])

/-- With S = 0 the carry flag is kept, by TEQ too (R173). -/
theorem dataProcessing_keeps_c (h : exec (.dataProcessing k c false rn rd o) s = .next t) :
    t.flags.c = s.flags.c := by
  by_contra hne
  obtain ⟨d, hd, hs⟩ := (Proofs.onlyFlagInstructionsChangeFlags _ s t h).2.1 hne
  cases (dataProcessing?_dataProcessing ..).symm.trans hd
  cases hs

/-- With S = 0, and by a logical operation, the overflow flag is kept (R161, R173). -/
theorem dataProcessing_keeps_v (h : exec (.dataProcessing k c sf rn rd o) s = .next t)
    (hv : sf = false ∨ isLogical k = true) : t.flags.v = s.flags.v := by
  by_contra hne
  obtain ⟨d, hd, -, hs, hl⟩ := exec_arithmetic_of_v_ne h hne
  cases (dataProcessing?_dataProcessing ..).symm.trans hd
  rcases hv with hv | hv
  · cases hv.symm.trans hs
  · cases hl.symm.trans hv

/-- The latch is kept, unless the instruction did nothing but raise Unimplemented (60_exceptions.md R232, R236). -/
theorem dataProcessing_latch (h : exec (.dataProcessing k c sf rn rd o) s = .next t) :
    t.latch = s.latch ∨ t = s.raise .unimplemented := by
  rcases exec_cases (.dataProcessing k c sf rn rd o) s with ⟨hu, -⟩ | ⟨-, -, e⟩ | ⟨-, -, -, e⟩ | ⟨-, -, -, u, hu, e⟩
  · cases (isUndecodable_dataProcessing ..).symm.trans hu
  · cases e.symm.trans h
    exact .inl (advance_latch s)
  · cases e.symm.trans h
    exact .inr rfl
  · cases e.symm.trans h
    obtain ⟨hlatch, -, -⟩ := hu.rest
    exact .inl hlatch

end Frame

/-- The parameters and the image, as a length and as bytes, are kept (20_memory.md R59). -/
theorem exec_keeps_parameters_and_bytes {i : Instr} {s t : State} (h : exec i s = .next t) :
    t.cfg = s.cfg ∧ t.image.len = s.image.len ∧ ∀ x : Nat, t.image.read x = s.image.read x := by
  obtain ⟨himage, hcfg⟩ := exec_next_image_cfg h
  rw [himage]
  exact ⟨hcfg, rfl, fun _ => rfl⟩

theorem writesRd_writing : ∀ k ∈ [AluOp.and, .eor, .sub, .rsb, .add, .adc, .sbc, .rsc, .orr, .mov, .bic, .mvn],
    writesRd k = true := by decide

/-! ### The flags of a difference as comparisons of the operands (R174) -/

/-- N of a difference equals its overflow V exactly when the true difference is not negative. -/
theorem sub_negative_eq_overflow_iff (a b : Word) :
    (a - b).getLsbD 31 = decide (a.toInt - b.toInt ≠ (a - b).toInt) ↔ b.toInt ≤ a.toInt := by
  have hsign : (a - b).getLsbD 31 = decide ((a - b).toInt < 0) := by
    rw [← BitVec.msb_eq_toInt, BitVec.msb_eq_getLsbD_last]
  have hwrap : (a - b).toInt = (a.toInt - b.toInt).bmod (2 ^ 32) := BitVec.toInt_sub
  have ha := BitVec.toInt_lt (x := a)
  have ha' := BitVec.le_toInt a
  have hb := BitVec.toInt_lt (x := b)
  have hb' := BitVec.le_toInt b
  rw [hsign, decide_eq_decide, hwrap, Int.bmod_def]
  split_ifs <;> omega

theorem toNat_lt_iff_le_and_ne (a b : Word) : b.toNat < a.toNat ↔ b.toNat ≤ a.toNat ∧ a ≠ b := by
  rw [Nat.lt_iff_le_and_ne, BitVec.toNat_ne_iff_ne, ne_comm]

theorem toInt_lt_iff_le_and_ne (a b : Word) : b.toInt < a.toInt ↔ b.toInt ≤ a.toInt ∧ a ≠ b := by
  rw [Int.lt_iff_le_and_ne, BitVec.toInt_ne, ne_comm]

end Sys2Proof.Machine

namespace Sys2Proof.Proofs

open Sys2Proof.Machine Sys2Proof.Claims

/-- Settles O20: AND is logical and writes Rd. -/
theorem andWritesConjunction : Obligations.AndWritesConjunction := by
  unfold Obligations.AndWritesConjunction
  exact aluRule_of_logical rfl fun _ _ _ => rfl

/-- Settles O21: EOR is logical and writes Rd. -/
theorem eorWritesExclusiveOr : Obligations.EorWritesExclusiveOr := by
  unfold Obligations.EorWritesExclusiveOr
  exact aluRule_of_logical rfl fun _ _ _ => rfl

/-- Settles O22: SUB writes what the adder gives for a + NOT b + 1. -/
theorem subWritesDifference : Obligations.SubWritesDifference := by
  unfold Obligations.SubWritesDifference
  exact aluRule_of_arithmetic rfl fun a b _ => addWithCarry_sub a b

/-- Settles O23: RSB writes what the adder gives for b + NOT a + 1. -/
theorem rsbWritesReverseDifference : Obligations.RsbWritesReverseDifference := by
  unfold Obligations.RsbWritesReverseDifference
  exact aluRule_of_arithmetic rfl fun a b _ => addWithCarry_sub b a

/-- Settles O24: ADD writes what the adder gives for a + b. -/
theorem addWritesSum : Obligations.AddWritesSum := by
  unfold Obligations.AddWritesSum
  exact aluRule_of_arithmetic rfl fun a b _ => addWithCarry_add a b

/-- Settles O25: ADC writes what the adder gives for a + b + C. -/
theorem adcWritesSumWithCarry : Obligations.AdcWritesSumWithCarry := by
  unfold Obligations.AdcWritesSumWithCarry
  exact aluRule_of_arithmetic rfl fun a b s => addWithCarry_adc a b s.flags.c

/-- Settles O26: SBC writes what the adder gives for a + NOT b + C. -/
theorem sbcWritesDifferenceWithBorrow : Obligations.SbcWritesDifferenceWithBorrow := by
  unfold Obligations.SbcWritesDifferenceWithBorrow
  exact aluRule_of_arithmetic rfl fun a b s => addWithCarry_sbc a b s.flags.c

/-- Settles O27: RSC writes what the adder gives for b + NOT a + C. -/
theorem rscWritesReverseDifferenceWithBorrow : Obligations.RscWritesReverseDifferenceWithBorrow := by
  unfold Obligations.RscWritesReverseDifferenceWithBorrow
  exact aluRule_of_arithmetic rfl fun a b s => addWithCarry_sbc b a s.flags.c

/-- Settles O28: TST takes its flags as AND does and writes no register. -/
theorem tstSetsFlagsOfConjunction : Obligations.TstSetsFlagsOfConjunction := by
  unfold Obligations.TstSetsFlagsOfConjunction
  exact aluRule_of_afterAlu fun s sf rd a b sc =>
    ⟨afterAlu_writesNoRegister sf rd sc rfl, afterAlu_logicalFlags sf rd sc rfl rfl⟩

/-- Settles O29: TEQ is the one operation that writes N and Z with S = 0. -/
theorem teqSetsNegativeAndZeroAlways : Obligations.TeqSetsNegativeAndZeroAlways := by
  unfold Obligations.TeqSetsNegativeAndZeroAlways
  exact aluRule_of_afterAlu fun s sf rd a b sc =>
    ⟨afterAlu_writesNoRegister sf rd sc rfl, afterAlu_teq_flags sf rd sc⟩

/-- Settles O30: CMP takes its flags as SUB does and writes no register. -/
theorem cmpSetsFlagsOfDifference : Obligations.CmpSetsFlagsOfDifference := by
  unfold Obligations.CmpSetsFlagsOfDifference
  exact aluRule_of_afterAlu fun s sf rd a b sc =>
    ⟨afterAlu_writesNoRegister sf rd sc rfl, afterAlu_arithmeticFlags sf rd sc rfl (addWithCarry_sub a b)⟩

/-- Settles O31: CMN takes its flags as ADD does and writes no register. -/
theorem cmnSetsFlagsOfSum : Obligations.CmnSetsFlagsOfSum := by
  unfold Obligations.CmnSetsFlagsOfSum
  exact aluRule_of_afterAlu fun s sf rd a b sc =>
    ⟨afterAlu_writesNoRegister sf rd sc rfl, afterAlu_arithmeticFlags sf rd sc rfl (addWithCarry_add a b)⟩

/-- Settles O32: ORR is logical and writes Rd. -/
theorem orrWritesDisjunction : Obligations.OrrWritesDisjunction := by
  unfold Obligations.OrrWritesDisjunction
  exact aluRule_of_logical rfl fun _ _ _ => rfl

/-- Settles O33: MOV is logical, writes Rd and does not use its first operand. -/
theorem movWritesOperand2 : Obligations.MovWritesOperand2 := by
  unfold Obligations.MovWritesOperand2
  exact aluRule_of_logical rfl fun _ _ _ => rfl

/-- Settles O34: BIC is logical and writes Rd. -/
theorem bicClearsBits : Obligations.BicClearsBits := by
  unfold Obligations.BicClearsBits
  exact aluRule_of_logical rfl fun _ _ _ => rfl

/-- Settles O35: MVN is logical, writes Rd and does not use its first operand. -/
theorem mvnWritesComplement : Obligations.MvnWritesComplement := by
  unfold Obligations.MvnWritesComplement
  exact aluRule_of_logical rfl fun _ _ _ => rfl

/-- Settles O41: none of the twelve is TEQ, so the frame of a data-processing instruction applies field by field. -/
theorem frameOfWritingAluInstructions : Obligations.FrameOfWritingAluInstructions := by
  unfold Obligations.FrameOfWritingAluInstructions
  intro k c sf rn rd o s t hk h
  refine ⟨fun j hrd hj => ?_, ?_, fun hl => ?_, dataProcessing_latch h, exec_keeps_parameters_and_bytes h⟩
  · exact dataProcessing_keeps_register h hj (.inr hrd)
  · rintro rfl
    exact dataProcessing_keeps_flags h (writesNzAlways_of_writesRd (writesRd_writing k hk))
  · exact dataProcessing_keeps_v h (.inr hl)

/-- Settles O42: the four write no register, and of them only TEQ writes a flag with S = 0. -/
theorem frameOfCompareInstructions : Obligations.FrameOfCompareInstructions := by
  unfold Obligations.FrameOfCompareInstructions
  intro k c sf rn rd o s t hk h
  refine ⟨fun j hj => ?_, ?_, ?_, fun hl => ?_, dataProcessing_latch h, exec_keeps_parameters_and_bytes h⟩
  · exact dataProcessing_keeps_register h hj (.inl (writesRd_compare k hk))
  · rintro rfl hteq
    exact dataProcessing_keeps_flags h (writesNzAlways_of_ne_teq hteq)
  · rintro rfl
    exact ⟨dataProcessing_keeps_c h, dataProcessing_keeps_v h (.inl rfl)⟩
  · exact dataProcessing_keeps_v h (.inr hl)

/-- Settles O52: after CMP, Z is a = b, C is no borrow, and N = V is the signed comparison. -/
theorem compareThenConditionsCompare : Obligations.CompareThenConditionsCompare := by
  unfold Obligations.CompareThenConditionsCompare
  intro c rn rd o s t hp hk ho h a b
  have hflags : t.flags = ⟨(a - b).getLsbD 31, decide (a - b = 0#32), decide (b.toNat ≤ a.toNat),
      decide (a.toInt - b.toInt ≠ (a - b).toInt)⟩ := by
    obtain ⟨hcmp, -⟩ := cmpSetsFlagsOfDifference c true rn rd o s
    obtain ⟨u, hu, -, -, hf⟩ := hcmp hp hk ho
    cases hu.symm.trans h
    exact hf
  have hz : decide (a - b = 0#32) = true ↔ a = b := decide_eq_true_iff.trans sub_eq_zero
  have hnz : decide (a - b = 0#32) = false ↔ a ≠ b := decide_eq_false_iff_not.trans sub_eq_zero.not
  have hsigned := sub_negative_eq_overflow_iff a b
  rw [hflags, toNat_lt_iff_le_and_ne, toInt_lt_iff_le_and_ne]
  exact ⟨hz, decide_eq_true_iff, and_congr decide_eq_true_iff hnz, hsigned, and_congr hsigned hnz⟩

end Sys2Proof.Proofs
end

section
/-! Proofs for 43_branch.md: the jump (R200, R202), the link (R201, R205), and which instructions keep register 15 a
multiple of 4 (R204). -/

namespace Sys2Proof.Machine

open Sys2Proof.Claims

/-! ### The branch offset (R202) -/

/-- The immediate the branch adds is the field times 4, read unsigned or signed by the parameter. -/
theorem branchImm_eq_branchOffset (s : State) (offset24 : BitVec 24) :
    branchImm s.cfg offset24 = branchOffset s offset24 := by
  rw [branchImm, branchOffset, mul_comm, BitVec.ofInt_mul]
  cases s.cfg.branchOffsetSigned with
  | true => rfl
  | false =>
    rw [if_neg Bool.false_ne_true, if_neg Bool.false_ne_true, BitVec.ofInt_natCast, BitVec.ofNat_toNat]
    rfl

theorem branchOffset_aligned (s : State) (offset24 : BitVec 24) : (branchOffset s offset24).toNat % 4 = 0 := by
  rw [branchOffset, BitVec.toNat_ofInt]
  omega

/-- A sum of multiples of 4 is one, for 4 divides 2^32. -/
theorem aligned_add {x y : Word} (hx : x.toNat % 4 = 0) (hy : y.toNat % 4 = 0) : (x + y).toNat % 4 = 0 := by
  rw [BitVec.toNat_add]
  omega

/-- A jump keeps register 15 a multiple of 4 (R200, R204). -/
theorem jumps_aligned {s t : State} {offset24 : BitVec 24} (h : Jumps s t offset24)
    (halign : (s.get 15).toNat % 4 = 0) : (t.get 15).toNat % 4 = 0 := by
  rw [h]
  exact aligned_add (aligned_add halign rfl) (branchOffset_aligned s offset24)

/-! ### The jump and the link -/

/-- Writing the target and advancing is the jump, whatever else was written: 8 + 4 = 12 (R200). -/
theorem advance_set_branchTarget_jumps (s u : State) (offset24 : BitVec 24) :
    Jumps s (u.set 15 (branchTarget s offset24)).advance offset24 := by
  rw [Jumps, advance_pc, get_set_same, branchTarget, branchImm_eq_branchOffset, add_right_comm]
  exact congrArg (· + branchOffset s offset24) (add_assoc (s.get 15) 8#32 4#32)

/-- The effect of a branch, once advanced, is the jump. -/
theorem Effect.advance_jumps {i : Instr} {s u : State} (h : Effect i s u) {c : Cond} {offset24 : BitVec 24}
    (hi : i = .b c offset24 ∨ i = .bl c offset24) : Jumps s u.advance offset24 := by
  rcases hi with rfl | rfl
  · cases h with
    | alu hd => cases hd
    | branch => exact advance_set_branchTarget_jumps s s offset24
  · cases h with
    | alu hd => cases hd
    | link => exact advance_set_branchTarget_jumps s (s.set 14 (s.pc + 4#32)) offset24

theorem exec_b_of_passes {c : Cond} {s : State} (hp : Passes c s.flags) (offset24 : BitVec 24) :
    exec (.b c offset24) s = .next (s.set 15 (branchTarget s offset24)).advance :=
  conditional_passes ((canExecute_iff_passes ..).2 hp) (branchHandler offset24)

theorem exec_bl_of_passes {c : Cond} {s : State} (hp : Passes c s.flags) (offset24 : BitVec 24) :
    exec (.bl c offset24) s = .next ((s.set 14 (s.pc + 4#32)).set 15 (branchTarget s offset24)).advance :=
  conditional_passes ((canExecute_iff_passes ..).2 hp) (branchLinkHandler offset24)

/-! ### The frame of an instruction, from what it may write -/

section Frame

variable {i : Instr} {s t : State} (h : exec i s = .next t)
include h

theorem exec_keeps_register {j : Reg} (hj : j ≠ 15) (hw : mayWrite i j = false) : t.get j = s.get j := by
  by_contra hne
  obtain ⟨-, hmay⟩ := Proofs.onlyDestinationsChange i s t j h hj hne
  cases hw.symm.trans hmay

theorem exec_keeps_flags (hw : mayWriteFlags i = false) : t.flags = s.flags := by
  by_contra hne
  obtain ⟨hflags, -, -⟩ := Proofs.onlyFlagInstructionsChangeFlags i s t h
  cases hw.symm.trans (hflags hne).2

/-- An instruction that decodes and has a handler raises nothing. -/
theorem exec_keeps_latch (hu : isUndecodable i = false) (hl : lacksHandler i s = false) : t.latch = s.latch := by
  rcases exec_cases i s with ⟨hu', -⟩ | ⟨-, -, e⟩ | ⟨-, -, hl', -⟩ | ⟨-, -, -, u, heff, e⟩
  · cases hu.symm.trans hu'
  · cases e.symm.trans h
    exact advance_latch s
  · cases hl.symm.trans hl'
  · cases e.symm.trans h
    obtain ⟨hlatch, -, -⟩ := heff.rest
    exact hlatch

end Frame

end Sys2Proof.Machine

namespace Sys2Proof.Proofs

open Sys2Proof.Machine Sys2Proof.Claims

/-- Settles O36: B writes the target into register 15 and nothing else, and the offset is a multiple of 4. -/
theorem branchJumps : Obligations.BranchJumps := by
  unfold Obligations.BranchJumps
  intro c offset24 s
  refine ⟨fun hp => ?_, fun hp => onlyAdvances_of_not_passes rfl hp⟩
  have hjump := advance_set_branchTarget_jumps s s offset24
  refine ⟨_, exec_b_of_passes hp offset24, hjump, fun j hj => ?_, rfl, ⟨rfl, rfl, rfl⟩, jumps_aligned hjump⟩
  rw [advance_get _ _ hj, get_set_ne _ _ _ _ hj]

/-- Settles O37: BL writes register 14 and register 15, both from the R[15] at the start of the step. -/
theorem branchWithLinkJumpsAndLinks : Obligations.BranchWithLinkJumpsAndLinks := by
  unfold Obligations.BranchWithLinkJumpsAndLinks
  intro c offset24 s
  refine ⟨fun hp => ?_, fun hp => onlyAdvances_of_not_passes rfl hp⟩
  refine ⟨_, exec_bl_of_passes hp offset24, advance_set_branchTarget_jumps s _ offset24, ?_, fun j hlink hj => ?_,
    rfl, rfl, rfl, rfl⟩
  · have hpc : (14 : Reg) ≠ 15 := by decide
    rw [advance_get _ _ hpc, get_set_ne _ _ _ _ hpc, get_set_same, State.pc]
  · rw [advance_get _ _ hj, get_set_ne _ _ _ _ hj, get_set_ne _ _ _ _ hlink]

/-- Settles O43: B may write register 15 and BL registers 14 and 15, neither writes a flag, and neither faults. -/
theorem frameOfBranches : Obligations.FrameOfBranches := by
  unfold Obligations.FrameOfBranches
  intro c offset24 s t
  refine ⟨fun h j hj => ?_, fun h j hlink hj => ?_, fun h => ?_⟩
  · exact exec_keeps_register h hj (by simpa [mayWrite, Instr.dataProcessing?] using hj)
  · exact exec_keeps_register h hj (by simpa [mayWrite, Instr.dataProcessing?] using And.intro hlink hj)
  · rcases h with h | h <;>
      exact ⟨exec_keeps_flags h rfl, exec_keeps_latch h rfl rfl, exec_keeps_parameters_and_bytes h⟩

/-- Settles O50: a fault keeps register 15, the Advance adds 4, and a jump adds a multiple of 4. -/
theorem onlyWritesOfRegister15BreakAlignment : Obligations.OnlyWritesOfRegister15BreakAlignment := by
  unfold Obligations.OnlyWritesOfRegister15BreakAlignment
  intro i s t h halign hi
  rcases exec_next_cases h with ⟨f, rfl⟩ | ⟨-, rfl⟩ | ⟨-, u, hu, rfl⟩
  · exact halign
  · rw [advance_pc]
    exact aligned_add halign rfl
  · rcases hi with hw | ⟨c, offset24, hb⟩ | ⟨c, offset24, hbl⟩
    · rw [advance_pc, hu.get_of_not_mayWrite hw]
      exact aligned_add halign rfl
    · exact jumps_aligned (hu.advance_jumps (.inl hb)) halign
    · exact jumps_aligned (hu.advance_jumps (.inr hbl)) halign

/-- Settles O51: the link is X + 4, the shift by 0 leaves it as operand 2, and the Advance adds 4 more. -/
theorem returnThroughLinkSkipsOneInstruction : Obligations.ReturnThroughLinkSkipsOneInstruction := by
  unfold Obligations.ReturnThroughLinkSkipsOneInstruction
  intro c c' offset24 sf rn s t u hp hbl hkept hmov hp'
  have hlink : u.get 14 = s.get 15 + 4#32 := by
    obtain ⟨hcall, -⟩ := branchWithLinkJumpsAndLinks c offset24 s
    obtain ⟨t', ht', -, hlink, -⟩ := hcall hp
    cases ht'.symm.trans hbl
    exact hkept.trans hlink
  have hvalue : (operand2Of u (.shiftImm 0 .lsl 14)).value = u.get 14 := rfl
  obtain ⟨hreturn, -⟩ := movWritesOperand2 c' sf rn 15 (.shiftImm 0 .lsl 14) u
  obtain ⟨v, hv, -, ⟨-, hpc⟩, -⟩ := hreturn hp' hmov (fun hror => nomatch hror)
  refine ⟨v, hv, ?_⟩
  rw [hpc, if_pos rfl, hvalue, hlink, add_assoc]
  rfl

end Sys2Proof.Proofs
end

section
/-! Proofs for 44_single_data_transfer.md: the load with register offset (R214), the forms without a handler (R215 to
R217), PLD (R218), and what the transfers leave unchanged (R219, R220). -/

namespace Sys2Proof.Machine

open Sys2Proof.Claims

/-! ### The load with register offset (R211 to R214) -/

/-- Writing one register and advancing is the effect of an instruction with one result, whichever register it is. -/
theorem set_advance_writesResult (s : State) (rd : Reg) (r : Word) : WritesResult s (s.set rd r).advance rd r := by
  refine ⟨fun j hj => ?_, ?_⟩
  · rw [advance_get _ _ hj, get_set]
  · rw [advance_pc, get_set, ite_cond_congr (propext eq_comm)]

section Load

variable {c : Cond} {amount : BitVec 5} {ty : ShiftType} {rm : Reg} {s : State}

/-- A load whose shifter gives a result writes the effective address to Rd (R213, R214). -/
theorem exec_ldrReg_of_rrxReady (hp : Passes c s.flags) (hr : RrxReady s (.shiftImm amount ty rm))
    (b24 u b22 b21 : Bool) (rn rd : Reg) :
    exec (.ldrReg c b24 u b22 b21 rn rd amount ty rm) s =
      .next (s.set rd (effectiveAddress u (operandValue s rn)
        (shift ty amount.toNat (operandValue s rm) s.flags.c).value)).advance := by
  have hoff : shiftedReg s ty amount.toNat rm = .ok (shift ty amount.toNat (operandValue s rm) s.flags.c) :=
    operand2_of_rrxReady hr
  have hrun : exec (.ldrReg c b24 u b22 b21 rn rd amount ty rm) s = finish s (loadHandler u rn rd amount ty rm s) :=
    conditional_passes ((canExecute_iff_passes ..).2 hp) (loadHandler u rn rd amount ty rm)
  rw [hrun, loadHandler, hoff]
  rfl

/-- A load lacks a handler where its shifter gives no result (30_encoding.md R83). -/
theorem lacksHandler_ldrReg_of_not_rrxReady (hr : ¬ RrxReady s (.shiftImm amount ty rm)) (c : Cond)
    (b24 u b22 b21 : Bool) (rn rd : Reg) : lacksHandler (.ldrReg c b24 u b22 b21 rn rd amount ty rm) s = true := by
  rw [← operandMissing_eq_false_iff_rrxReady, Bool.not_eq_false] at hr
  exact hr

end Load

/-! ### The frame of a transfer (R219, R220) -/

section Frame

variable {i : Instr} {s t : State} (h : exec i s = .next t)
include h

/-- An instruction that decodes keeps the latch, unless it did nothing but raise Unimplemented (60_exceptions.md R232,
R236). -/
theorem exec_latch_or_unimplemented (hu : isUndecodable i = false) :
    t.latch = s.latch ∨ t = s.raise .unimplemented := by
  rcases exec_cases i s with ⟨hu', -⟩ | ⟨-, -, e⟩ | ⟨-, -, -, e⟩ | ⟨-, -, -, u, heff, e⟩
  · cases hu.symm.trans hu'
  · cases e.symm.trans h
    exact .inl (advance_latch s)
  · cases e.symm.trans h
    exact .inr rfl
  · cases e.symm.trans h
    obtain ⟨hlatch, -, -⟩ := heff.rest
    exact .inl hlatch

/-- What an instruction that decodes and may write no flag leaves of everything but the registers. -/
theorem exec_keeps_flags_latch_and_bytes (hu : isUndecodable i = false) (hw : mayWriteFlags i = false) :
    t.flags = s.flags ∧ (t.latch = s.latch ∨ t = s.raise .unimplemented) ∧
      t.cfg = s.cfg ∧ t.image.len = s.image.len ∧ ∀ a : Nat, t.image.read a = s.image.read a :=
  ⟨exec_keeps_flags h hw, exec_latch_or_unimplemented h hu, exec_keeps_parameters_and_bytes h⟩

end Frame

end Sys2Proof.Machine

namespace Sys2Proof.Proofs

open Sys2Proof.Machine Sys2Proof.Claims

/-- Settles O38: the load is one register write followed by the Advance; without a shifter result it has no handler. -/
theorem loadWritesEffectiveAddress : Obligations.LoadWritesEffectiveAddress := by
  unfold Obligations.LoadWritesEffectiveAddress
  intro c b24 u b22 b21 rn rd amount ty rm s i off
  refine ⟨fun hp hr => ?_, fun hp hr => ?_, fun hp => onlyAdvances_of_not_passes rfl hp⟩
  · exact ⟨_, exec_ldrReg_of_rrxReady hp hr b24 u b22 b21 rn rd, set_advance_writesResult s rd _, rfl, rfl, rfl, rfl⟩
  · exact raises_of_lacksHandler rfl hp (lacksHandler_ldrReg_of_not_rrxReady hr c b24 u b22 b21 rn rd)

/-- Settles O39: the three forms are on the list of 30_encoding.md R83 in every state. -/
theorem transfersWithoutHandlerRaiseUnimplemented : Obligations.TransfersWithoutHandlerRaiseUnimplemented := by
  unfold Obligations.TransfersWithoutHandlerRaiseUnimplemented
  intro c i b24 u b22 b21 rn rd imm12 offset offHi offLo s
  refine ⟨fun hp => ⟨?_, ?_, ?_⟩, fun hp => ⟨?_, ?_, ?_⟩⟩
  · exact raises_of_lacksHandler rfl hp rfl
  · exact raises_of_lacksHandler rfl hp rfl
  · exact raises_of_lacksHandler rfl hp rfl
  · exact onlyAdvances_of_not_passes rfl hp
  · exact onlyAdvances_of_not_passes rfl hp
  · exact onlyAdvances_of_not_passes rfl hp

/-- Settles O40: the condition of PLD is NV, which never passes. -/
theorem preloadOnlyAdvances : Obligations.PreloadOnlyAdvances := by
  unfold Obligations.PreloadOnlyAdvances
  intro rest s
  have hnv : ¬ Passes (Instr.pld rest).cond s.flags := fun hp => hp
  exact onlyAdvances_of_not_passes rfl hnv

/-- Settles O44: only the load with register offset may write a register, its Rd, and no transfer may write a flag. -/
theorem frameOfTransfers : Obligations.FrameOfTransfers := by
  unfold Obligations.FrameOfTransfers
  intro c i b24 u b22 b21 rn rd rm amount ty imm12 offHi offLo rest s t
  refine ⟨fun h j hrd hj => ?_, fun h j hj => ?_, fun h => ?_⟩
  · exact exec_keeps_register h hj (beq_false_of_ne hrd)
  · rcases h with h | h | h | h <;> exact exec_keeps_register h hj rfl
  · rcases h with h | h | h | h | h <;> exact exec_keeps_flags_latch_and_bytes h rfl rfl

end Sys2Proof.Proofs
end

section
/-! Proofs for 60_exceptions.md: the fetch faults (R233, R234, R237), Undecodable (R231), Unimplemented (R232), what a
faulting step leaves unchanged (R236), and the invariant that a set latch tells why the core halted. One lemma says when
an instruction raises which fault, one says the same of a step, and the statements follow from the two. -/

namespace Sys2Proof.Machine

open Sys2Proof.Claims

/-! ### The faults of the fetch (R233, R234, R237) -/

theorem step_of_misaligned {s : State} (hlen : s.image.len ≤ 2 ^ 32) (hlatch : s.latch = none)
    (hmis : s.pc.toNat % 4 ≠ 0) : step s = .next (s.raise .misalignedFetch) := by
  rcases step_cases s with ⟨hlong, -⟩ | ⟨-, ⟨f, hf⟩, -⟩ | ⟨-, -, -, e⟩ | ⟨-, -, ha, -⟩ | ⟨-, -, ha, -⟩
  · exact absurd hlen (Nat.not_le.2 hlong)
  · cases hlatch.symm.trans hf
  · exact e
  · exact absurd ha hmis
  · exact absurd ha hmis

theorem step_of_outOfBounds {s : State} (hlen : s.image.len ≤ 2 ^ 32) (hlatch : s.latch = none)
    (halign : s.pc.toNat % 4 = 0) (hout : s.image.len < s.pc.toNat + 4) :
    step s = .next (s.raise .fetchOutOfBounds) := by
  rcases step_cases s with ⟨hlong, -⟩ | ⟨-, ⟨f, hf⟩, -⟩ | ⟨-, -, hmis, -⟩ | ⟨-, -, -, -, e⟩ | ⟨-, -, -, hin, -⟩
  · exact absurd hlen (Nat.not_le.2 hlong)
  · cases hlatch.symm.trans hf
  · exact absurd halign hmis
  · exact e
  · exact absurd hout (Nat.not_lt.2 hin)

/-! ### The faults of an instruction (R231, R232) -/

theorem raises_of_isUndecodable {i : Instr} (hu : isUndecodable i = true) (s : State) : Raises i s .undecodable := by
  rcases exec_cases i s with ⟨-, e⟩ | ⟨hu', -⟩ | ⟨hu', -⟩ | ⟨hu', -⟩
  case inl => exact e
  all_goals cases hu.symm.trans hu'

/-- An instruction keeps the latch, or it is an undecodable opcode and raises Undecodable, or it executes without a
handler and raises Unimplemented. -/
theorem exec_latch_cases {i : Instr} {s t : State} (h : exec i s = .next t) :
    t.latch = s.latch ∨ (isUndecodable i = true ∧ t = s.raise .undecodable) ∨
      (canExecute i.cond s.flags = true ∧ lacksHandler i s = true ∧ t = s.raise .unimplemented) := by
  rcases exec_cases i s with ⟨hu, e⟩ | ⟨-, -, e⟩ | ⟨-, hc, hl, e⟩ | ⟨-, -, -, u, heff, e⟩ <;> cases e.symm.trans h
  · exact .inr (.inl ⟨hu, rfl⟩)
  · exact .inl (advance_latch s)
  · exact .inr (.inr ⟨hc, hl, rfl⟩)
  · obtain ⟨hlatch, -, -⟩ := heff.rest
    exact .inl hlatch

/-- Bits 27-25 of the three undecodable patterns (30_encoding.md R82). -/
theorem isUndecodable_decode {w : Word}
    (h : field w 25 3 = 0b100#3 ∨ field w 25 3 = 0b110#3 ∨ field w 25 3 = 0b111#3) :
    isUndecodable (decode w) = true := by
  rcases h with h | h | h
  · rw [decode_eq_undecodable100 h]
    rfl
  · rw [decode_eq_undecodable110 h]
    rfl
  · rw [decode_eq_undecodable111 h]
    rfl

/-! ### The list of 30_encoding.md R83 -/

/-- The list holds instructions that decode. -/
theorem isUndecodable_of_lacksHandler {i : Instr} {s : State} (hl : lacksHandler i s = true) :
    isUndecodable i = false := by
  cases i with
  | undecodable100 | undecodable110 | undecodable111 => cases hl
  | _ => rfl

theorem rorZeroMissing_of_rrx {cfg : Config} (h : cfg.rrxImplemented = true) (ty : ShiftType) (n : Nat) :
    rorZeroMissing cfg ty n = false :=
  (rorZeroMissing_eq_false_iff cfg ty n).2 fun _ _ => h

theorem operandMissing_of_rrx {s : State} (h : s.cfg.rrxImplemented = true) (o : Operand2) :
    operandMissing s o = false := by
  cases o with
  | imm => rfl
  | shiftImm amount ty => exact rorZeroMissing_of_rrx h ty amount.toNat
  | shiftReg rs _ ty => exact rorZeroMissing_of_rrx h ty (shiftAmount s rs)

/-- The ARCH setting has a handler for every operation (00_scope.md R5). -/
theorem mem_arch_aluHandlers (k : AluOp) : k ∈ Config.arch.aluHandlers := by
  cases k <;> decide

/-! ### A raised fault and what explains it (R236) -/

theorem faultCode_raise_ne_zero (s : State) (f : FaultKind) : faultCode (s.raise f) ≠ 0#3 := by
  cases f <;> simp [faultCode]

theorem fetchable_iff (s : State) : fetchable s = true ↔ s.pc.toNat % 4 = 0 ∧ s.pc.toNat + 4 ≤ s.image.len := by
  simp [fetchable]

theorem latchExplained_of_latch_none {s : State} (h : s.latch = none) : latchExplained s = true := by
  rw [latchExplained, h]

theorem latchExplained_raise_misalignedFetch (s : State) :
    latchExplained (s.raise .misalignedFetch) = true ↔ s.pc.toNat % 4 ≠ 0 := bne_iff_ne

theorem latchExplained_raise_fetchOutOfBounds (s : State) :
    latchExplained (s.raise .fetchOutOfBounds) = true ↔ s.pc.toNat % 4 = 0 ∧ s.image.len < s.pc.toNat + 4 :=
  Bool.and_eq_true_iff.trans (and_congr beq_iff_eq decide_eq_true_iff)

theorem latchExplained_raise_undecodable (s : State) :
    latchExplained (s.raise .undecodable) = true ↔
      fetchable s = true ∧ isUndecodable (decode (opcodeAtPc s)) = true :=
  Bool.and_eq_true_iff

theorem latchExplained_raise_unimplemented (s : State) :
    latchExplained (s.raise .unimplemented) = true ↔
      fetchable s = true ∧ canExecute (decode (opcodeAtPc s)).cond s.flags = true ∧
        lacksHandler (decode (opcodeAtPc s)) s = true :=
  Bool.and_eq_true_iff.trans ((and_congr_left' Bool.and_eq_true_iff).trans and_assoc)

/-- A step of a core that is not halted leaves the latch empty, or does nothing but raise a fault, and then the state
explains the fault. -/
theorem step_latch_cases {s t : State} (hlatch : s.latch = none) (h : step s = .next t) :
    t.latch = none ∨ ∃ f, t = s.raise f ∧ latchExplained t = true := by
  rcases step_cases s with ⟨-, e⟩ | ⟨-, ⟨f, hf⟩, -⟩ | ⟨-, -, hmis, e⟩ | ⟨-, -, ha, hout, e⟩ | ⟨-, -, ha, hin, e⟩
  · cases e.symm.trans h
  · cases hlatch.symm.trans hf
  · cases e.symm.trans h
    exact .inr ⟨_, rfl, (latchExplained_raise_misalignedFetch s).2 hmis⟩
  · cases e.symm.trans h
    exact .inr ⟨_, rfl, (latchExplained_raise_fetchOutOfBounds s).2 ⟨ha, hout⟩⟩
  · have hfetch : fetchable s = true := (fetchable_iff s).2 ⟨ha, hin⟩
    rcases exec_latch_cases (e.symm.trans h) with hkept | ⟨hu, rfl⟩ | ⟨hc, hl, rfl⟩
    · exact .inl (hkept.trans hlatch)
    · exact .inr ⟨_, rfl, (latchExplained_raise_undecodable s).2 ⟨hfetch, hu⟩⟩
    · exact .inr ⟨_, rfl, (latchExplained_raise_unimplemented s).2 ⟨hfetch, hc, hl⟩⟩

/-- A step keeps a set latch explained: a halted core stays as it is, and a fault that is raised is explained. -/
theorem step_keeps_latchExplained {s t : State} (hlen : s.image.len ≤ 2 ^ 32) (hex : latchExplained s = true)
    (h : step s = .next t) : latchExplained t = true := by
  rcases hlatch : s.latch with _ | f
  · rcases step_latch_cases hlatch h with hnone | ⟨f, -, hex'⟩
    · exact latchExplained_of_latch_none hnone
    · exact hex'
  · cases (step_of_halted hlen hlatch).symm.trans h
    exact hex

end Sys2Proof.Machine

namespace Sys2Proof.Proofs

open Sys2Proof.Machine Sys2Proof.Claims

/-- Settles O9: the image stays, and a set latch stays explained. -/
theorem stepKeepsInvariant : Obligations.StepKeepsInvariant := by
  unfold Obligations.StepKeepsInvariant
  intro s t hinv h
  obtain ⟨hwf, hlen, hex⟩ := hinv
  obtain ⟨himage, -⟩ := stepNeverChangesImageOrParameters s t h
  have hex' : latchExplained t = true := step_keeps_latchExplained hlen hex h
  exact ⟨himage ▸ hwf, himage ▸ hlen, hex'⟩

/-- Settles O10: a step that sets the latch does nothing else, and every fault has a code other than 0. -/
theorem faultsArePrecise : Obligations.FaultsArePrecise := by
  unfold Obligations.FaultsArePrecise
  intro s t f hlatch h hf
  rcases step_latch_cases hlatch h with hnone | ⟨f', rfl, -⟩
  · cases hnone.symm.trans hf
  · obtain rfl : f' = f := Option.some.inj hf
    exact ⟨rfl, rfl, faultCode_raise_ne_zero s f'⟩

/-- Settles O18: bits 27-25 alone make an opcode undecodable, and what decodes raises Unimplemented or nothing. -/
theorem undecodableAlwaysFaults : Obligations.UndecodableAlwaysFaults := by
  unfold Obligations.UndecodableAlwaysFaults
  refine ⟨fun c rest s => ?_, fun s hfetch hbits => ?_, fun i s t hu h hf => ?_⟩
  · exact ⟨raises_of_isUndecodable rfl s, raises_of_isUndecodable rfl s, raises_of_isUndecodable rfl s⟩
  · rw [step_of_fetches hfetch]
    exact raises_of_isUndecodable (isUndecodable_decode hbits) s
  · rcases exec_latch_or_unimplemented h hu with hkept | rfl
    · exact hkept.symm.trans hf
    · cases hf

/-- Settles O19: of the three ways exec can treat the latch, only the missing handler raises Unimplemented; ARCH has
all sixteen handlers and RRX. -/
theorem unimplementedHasExactlyTheListedCauses : Obligations.UnimplementedHasExactlyTheListedCauses := by
  unfold Obligations.UnimplementedHasExactlyTheListedCauses
  refine ⟨fun i s hlatch => ⟨fun hraise => ?_, fun ⟨hp, hl⟩ => ?_⟩, fun i s d hcfg hd => ?_, ?_⟩
  · rcases exec_latch_cases hraise with hkept | ⟨-, e⟩ | ⟨hc, hl, -⟩
    · cases hkept.trans hlatch
    · cases congrArg State.latch e
    · exact ⟨(canExecute_iff_passes ..).1 hc, hl⟩
  · exact raises_of_lacksHandler (isUndecodable_of_lacksHandler hl) hp hl
  · have hk : d.op ∈ s.cfg.aluHandlers := hcfg ▸ mem_arch_aluHandlers d.op
    have ho : operandMissing s d.op2 = false := operandMissing_of_rrx (congrArg Config.rrxImplemented hcfg) d.op2
    simp [lacksHandler, hd, hk, ho]
  · intro c b24 u b22 b21 rn rd rm amount ty s hcfg
    exact rorZeroMissing_of_rrx (congrArg Config.rrxImplemented hcfg) ty amount.toNat

/-- Settles O2: both are faults of the fetch, and R[15] is the program counter. -/
theorem fetchFaultsByAlignmentThenBound : Obligations.FetchFaultsByAlignmentThenBound := by
  unfold Obligations.FetchFaultsByAlignmentThenBound
  intro s hlen hlatch
  exact ⟨step_of_misaligned hlen hlatch, step_of_outOfBounds hlen hlatch⟩

end Sys2Proof.Proofs
end

section
/-! Proofs for 70_reset_and_hazards.md: no step hangs (R268), and a code length above 2^32 is refused (log entry 5). -/

namespace Sys2Proof.Machine

/-- A step of a configuration with a legal code length answers a next state: a halted core and a fetch fault answer one
themselves, and exec always does (R268). -/
theorem step_answers {s : State} (hlen : s.image.len ≤ 2 ^ 32) : ∃ t, step s = .next t := by
  rcases step_cases s with ⟨hlong, -⟩ | ⟨-, -, e⟩ | ⟨-, -, -, e⟩ | ⟨-, -, -, -, e⟩ | ⟨-, -, -, -, e⟩
  · exact absurd hlen (Nat.not_le.2 hlong)
  · exact ⟨_, e⟩
  · exact ⟨_, e⟩
  · exact ⟨_, e⟩
  · obtain ⟨t, ht⟩ := exec_answers (decode (opcodeAtPc s)) s
    exact ⟨t, e.trans ht⟩

/-- A step of a configuration with CODE_LEN above 2^32 is refused, halted or not (93_implementation_defined.md row 22). -/
theorem step_of_codeLenAboveLimit {s : State} (hlong : 2 ^ 32 < s.image.len) :
    step s = .refused .codeLenAboveLimit := by
  rcases step_cases s with ⟨-, e⟩ | ⟨hlen, -⟩ | ⟨hlen, -⟩ | ⟨hlen, -⟩ | ⟨hlen, -⟩
  case inl => exact e
  all_goals exact absurd hlen (Nat.not_le.2 hlong)

end Sys2Proof.Machine

namespace Sys2Proof.Proofs

open Sys2Proof.Machine

/-- Settles O4: of the ways a step can go, only the one for a code length above 2^32 answers no next state. -/
theorem stepAlwaysCompletes : Obligations.StepAlwaysCompletes := by
  unfold Obligations.StepAlwaysCompletes
  intro s
  exact ⟨step_answers, step_of_codeLenAboveLimit⟩

end Sys2Proof.Proofs
end
